-- ==== Sys2Proof/Word.lean ====
section
/-! DEFINITION. Word.lean: the word types of the model. The spec's values are unsigned integers of a stated width
(00_scope.md R11); a one-bit value is a `Bool`. -/

namespace Sys2Proof

/-- A byte: `din`, a memory byte, a software data word. -/
abbrev Byte := BitVec 8

/-- The CRC accumulator's word (00_scope.md R9: `CRC_W` = 32). -/
abbrev Acc := BitVec 32

/-- One payload unit of the checker's streams, zero-extended from `DW` bits to 32 (R11: every widening is by zero
extension). -/
abbrev DataUnit := BitVec 32

/-- The word that stands for one operation of the table in a script (notes/assumptions/1.md). -/
abbrev OpWord := BitVec 32

end Sys2Proof
end

