-- ==== Sys2Proof/Config.lean ====
section
/-! DEFINITION. Config.lean: the implementation parameters (00_scope.md R8, R9, R10), the input record of a tick
(10_state.md R40, R43), and the values the spec leaves open, as constants without a body: no proof can see one. -/

namespace Sys2Proof

/-- `DW`, the unit width: one of the divisors of 32 (00_scope.md R10; 44_crc_checker.md R216). A width that does not
divide 32 cannot be written (93 U7). -/
inductive DataWidth where
  | w1 | w2 | w4 | w8 | w16 | w32
deriving DecidableEq, Repr, Inhabited

/-- The width in bits. -/
def DataWidth.bits : DataWidth → Nat
  | .w1 => 1
  | .w2 => 2
  | .w4 => 4
  | .w8 => 8
  | .w16 => 16
  | .w32 => 32

/-- Which CRC engine stands beside the checker: the external collaborator of the spec, about which nothing but
the contract of R235 is known (R9), or the reference instance of R236. -/
inductive CrcEngine where
  | external | reference
deriving DecidableEq, Repr, Inhabited

/-- The parameters a model takes as arguments (R8, R9; `10_state.md` R56). The EDID image is held as memory. -/
structure Params where
  /-- `DW` (R9). -/
  dw : DataWidth
  /-- `HAS_HPD_PIN` (R8). -/
  hasHpdPin : Bool
  /-- `HAS_HPD_EN_PIN` (R8). -/
  hasHpdEnPin : Bool
  /-- `CRC_INIT`, `crc_update` and `crc_error` (R9). -/
  engine : CrcEngine
deriving DecidableEq, Repr, Inhabited

/-- The input values of one tick: the EDID engine's (10_state.md R40) and the checker's (R43). `sinkData` carries `DW`
bits; the bits above are dropped where it is read. -/
structure Inputs where
  sclPin : Bool
  sdaPin : Bool
  hpdPin : Bool
  hpdEnWe : Bool
  hpdEnWdata : Bool
  evClear : Bool
  sinkStb : Bool
  sinkSop : Bool
  sinkEop : Bool
  sinkData : DataUnit
  sourceAck : Bool
deriving DecidableEq, Repr, Inhabited

namespace Config

/-! ## The values the source gives (R8, R9) -/

/-- `N_SAMP` (R8). The 6-bit counter's carry is at `N_SAMP - 1`. -/
def nSamp : Nat := 64

/-- `SLAVE_ADDR` (R8). -/
def slaveAddr : BitVec 7 := 0x50#7

/-- `MEM_BYTES` (R8). -/
def memBytes : Nat := 128

/-- `CRC_W` (R9). -/
def crcWidth : Nat := 32

/-- `Q`, the quarter of a bit period in the reference waveform (95_test_vectors.md section 2). -/
def quarter : Nat := 128

/-! ## Free constants -/

/-- The parameters of this implementation (notes/assumptions/6.md). -/
opaque params : Params

/-- `EDID_IMAGE` (R8; 93 U4): "no default" (notes/assumptions/7.md). -/
opaque edidImage : BitVec 7 → Byte

/-- The inputs of tick `t` where nothing in the state fixes them (93 U1; notes/assumptions/5.md). -/
opaque envInputs : Nat → Inputs

/-- `CRC_INIT` of the external engine (R9, 93 U5; notes/assumptions/8.md). What R235 says this and the next two must satisfy is
`Safety.EngineMeetsContract`. -/
opaque crcInit : Acc

/-- `crc_update` of the external engine, for units of the given width. -/
opaque crcUpdate : DataWidth → Acc → DataUnit → Acc

/-- `crc_error` of the external engine. -/
opaque crcError : Acc → Bool

/-- `source_data` in tick `t` while the buffer is empty (R227, 93 U2; notes/assumptions/9.md). -/
opaque emptyHeadData : Nat → DataUnit

/-- `source_sop` in tick `t` while the buffer is empty (R227, 93 U2; notes/assumptions/9.md). -/
opaque emptyHeadSop : Nat → Bool

/-- The bit selected in tick `t` for a `counter` above 8, a value no run reaches (93 U10; notes/assumptions/10.md). -/
opaque bitBeyondByte : Nat → Bool

end Config

/-- `RATIO` = `CRC_W / DW` (R9). -/
def DataWidth.ratio (w : DataWidth) : Nat := Config.crcWidth / w.bits

/-- `BUF_DEPTH` = `RATIO + 1` (R9). -/
def DataWidth.bufDepth (w : DataWidth) : Nat := w.ratio + 1

end Sys2Proof
end

