-- ==== Sys2Proof/Syntax.lean ====
section
/-! DEFINITION. Syntax.lean: the operations of the hardware, one constructor per row of spec/opcode_table.json
(30_encoding.md R102), in the table's order. -/

namespace Sys2Proof

/-- The operations. "Operation" stands where a processor's manual says "instruction" (00_scope.md R2). -/
inductive Instr where
  -- synchronizer, sampler and edge detector (40_sync_edge.md)
  | syncScl
  | syncSda
  | sampCount
  | sampLatch
  | edgePrevScl
  | edgePrevSda
  | edgeSclRising
  | edgeSdaRising
  | edgeSdaFalling
  | edgeStart
  -- bit and byte engine (41_byte_engine.md)
  | bitCount
  | bitShift
  | dirLatch
  | offLoad
  | offInc
  | drvBit
  | drvEn
  | drvSdaO
  | drvSdaOe
  -- protocol machine, overrides and rows (42_edid_fsm.md part 1)
  | ovrHpd
  | ovrStart
  | stWaitStart
  | stRcvAddress
  | stAckAddress0
  | stAckAddress1
  | stAckAddress2
  | stRcvOffset
  | stAckOffset0
  | stAckOffset1
  | stAckOffset2
  | stRead
  | stAckRead
  -- bus-level operations (42_edid_fsm.md part 2)
  /-- script token `S`, or `Sr` when `repeated` (30_encoding.md R86, R106) -/
  | busStart (repeated : Bool)
  | busAddrW
  | busAddrR
  /-- `addr` is any address but the engine's own; `rw` the direction bit (R89) -/
  | busAddrMiss (addr : BitVec 7) (rw : Bool)
  /-- `ignored` is bit 7 of the byte, `off` bits 6..0 (R90) -/
  | busOffset (ignored : Bool) (off : BitVec 7)
  | busRdbyte
  | busMack
  | busMnack
  | busStop
  -- hot-plug, event and register accesses (43_hpd_event_csr.md)
  | hpdSync
  | csrRdHpdNotif
  /-- `data` is the word written; bit 0 is the value (R193, 10_state.md R52) -/
  | csrWrHpdEn (data : BitVec 8)
  | csrRdHpdEn
  | hpdPin
  | evLine
  | evEdge
  | evPrev
  | evPending
  | evCapture
  | csrRdEvStatus
  | evIrq
  | csrRdEvPending
  | csrRdEvCaptured
  | dbgTaps
  | csrClrEv
  -- CRC checker (44_crc_checker.md)
  | crcFull
  | crcSrcStb
  | crcFifoOut
  | crcFifoIn
  | crcSinkAck
  | crcSrcPayload
  | crcSrcEop
  | crcBufUpdate
  | crcEngineNext
  | crcEngineAcc
  | crcSrcError
  | crcBusy
  | cstReset
  | cstIdle
  | cstCopy
deriving DecidableEq, Repr

/-- The formats of 30_encoding.md R108. -/
inductive Format where
  | i2cByte | i2cCond | state | tick | csr | stream
deriving DecidableEq, Repr

/-- The format the table gives an operation's row. -/
def Instr.format : Instr → Format
  | .syncScl => .tick
  | .syncSda => .tick
  | .sampCount => .tick
  | .sampLatch => .tick
  | .edgePrevScl => .tick
  | .edgePrevSda => .tick
  | .edgeSclRising => .i2cCond
  | .edgeSdaRising => .i2cCond
  | .edgeSdaFalling => .i2cCond
  | .edgeStart => .i2cCond
  | .bitCount => .tick
  | .bitShift => .tick
  | .dirLatch => .state
  | .offLoad => .state
  | .offInc => .state
  | .drvBit => .state
  | .drvEn => .state
  | .drvSdaO => .tick
  | .drvSdaOe => .tick
  | .ovrHpd => .state
  | .ovrStart => .state
  | .stWaitStart => .state
  | .stRcvAddress => .state
  | .stAckAddress0 => .state
  | .stAckAddress1 => .state
  | .stAckAddress2 => .state
  | .stRcvOffset => .state
  | .stAckOffset0 => .state
  | .stAckOffset1 => .state
  | .stAckOffset2 => .state
  | .stRead => .state
  | .stAckRead => .state
  | .busStart _ => .i2cCond
  | .busAddrW => .i2cByte
  | .busAddrR => .i2cByte
  | .busAddrMiss _ _ => .i2cByte
  | .busOffset _ _ => .i2cByte
  | .busRdbyte => .i2cByte
  | .busMack => .i2cByte
  | .busMnack => .i2cByte
  | .busStop => .i2cCond
  | .hpdSync => .tick
  | .csrRdHpdNotif => .csr
  | .csrWrHpdEn _ => .csr
  | .csrRdHpdEn => .csr
  | .hpdPin => .tick
  | .evLine => .tick
  | .evEdge => .tick
  | .evPrev => .tick
  | .evPending => .tick
  | .evCapture => .tick
  | .csrRdEvStatus => .csr
  | .evIrq => .tick
  | .csrRdEvPending => .csr
  | .csrRdEvCaptured => .csr
  | .dbgTaps => .tick
  | .csrClrEv => .csr
  | .crcFull => .tick
  | .crcSrcStb => .tick
  | .crcFifoOut => .tick
  | .crcFifoIn => .tick
  | .crcSinkAck => .tick
  | .crcSrcPayload => .tick
  | .crcSrcEop => .tick
  | .crcBufUpdate => .tick
  | .crcEngineNext => .tick
  | .crcEngineAcc => .tick
  | .crcSrcError => .tick
  | .crcBusy => .tick
  | .cstReset => .stream
  | .cstIdle => .stream
  | .cstCopy => .stream

end Sys2Proof
end

