-- ==== Sys2Proof/WellFormed.lean ====
section
/-! DEFINITION. WellFormed.lean: which terms of `Instr` are operations of the hardware. Every operand is bounded by its
type but one: an address that misses is not the engine's own (30_encoding.md R89; 42_edid_fsm.md R173). -/

namespace Sys2Proof

/-- The checks on an operation's operands. -/
def Instr.wellFormed : Instr → Bool
  | .busAddrMiss addr _ => addr != Config.slaveAddr
  | _ => true

end Sys2Proof
end

