-- ==== Sys2Proof/Decode.lean ====
section
/-! DEFINITION. Decode.lean: from an operation's word to the operation, total and rejecting by name; then the encoder.

The spec's encodings are wire patterns and state names, not numbers (30_encoding.md R108). A word of the model carries the
row's pattern in its low nine bits, the row's format beside it, and a selector for rows that share format and pattern
(notes/assumptions/1.md, DESIGN CHOICE):

    bits  8..0   the pattern
                   I2C_BYTE   7..0 the byte, most significant bit first on the wire; 8 the acknowledge bit
                   I2C_COND   3..0 the value of scl_r scl_i sda_r sda_i; 7..4 which of them the pattern fixes
                   STATE      3..0 the state's place in the list of 10_state.md R33, 15 for `*`
                   STREAM     1..0 the state's place in the list of 10_state.md R44
                   CSR        7..0 the data word of a write
                   TICK       nothing (the empty pattern)
    bits 19..16  the format: 0 I2C_BYTE, 1 I2C_COND, 2 STATE, 3 TICK, 4 CSR, 5 STREAM
    bits 27..20  the selector
    all others   0 -/

namespace Sys2Proof

/-- Why a word encodes no operation of the table. -/
inductive DecodeError where
  /-- a bit outside the fields is set -/
  | reservedBits
  /-- the format field is above 5 -/
  | unknownFormat
  /-- the selector names no row of the format -/
  | unknownSelector
  /-- the pattern is none of the rows' under this format and selector -/
  | unknownPattern
  /-- an address frame whose acknowledge bit fits neither BUS.ADDR_W, BUS.ADDR_R nor BUS.ADDR_MISS (R89, R103) -/
  | addressAcknowledge
  /-- an offset frame that is not acknowledged: every offset byte is (R90, R92) -/
  | offsetNotAcknowledged
deriving DecidableEq, Repr

/-! ## Fields -/

/-- The pattern, bits 8..0. -/
def OpWord.pattern (w : OpWord) : BitVec 9 := w.extractLsb' 0 9

/-- The byte bits of a frame, bits 7..0. -/
def OpWord.byte (w : OpWord) : Byte := w.extractLsb' 0 8

/-- The ninth bit of a frame. -/
def OpWord.ack (w : OpWord) : Bool := w.getLsbD 8

/-- The format field, bits 19..16. -/
def OpWord.formatCode (w : OpWord) : BitVec 4 := w.extractLsb' 16 4

/-- The selector field, bits 27..20. -/
def OpWord.selector (w : OpWord) : BitVec 8 := w.extractLsb' 20 8

/-- No bit outside the fields is set. -/
def OpWord.reservedClear (w : OpWord) : Bool := w.extractLsb' 9 7 == 0#7 && w.extractLsb' 28 4 == 0#4

/-! ## The formats -/

/-- The address frame (R89): decoded in `RCV_ADDRESS`. -/
def decodeAddressFrame (byte : Byte) (ack : Bool) : Except DecodeError Instr :=
  let addr := byte.extractLsb' 1 7
  let rw := byte.getLsbD 0
  if addr = Config.slaveAddr then
    if ack then .error .addressAcknowledge else .ok (if rw then .busAddrR else .busAddrW)
  else
    if ack then .ok (.busAddrMiss addr rw) else .error .addressAcknowledge

/-- The offset frame (R90): decoded in `RCV_OFFSET`. -/
def decodeOffsetFrame (byte : Byte) (ack : Bool) : Except DecodeError Instr :=
  if ack then .error .offsetNotAcknowledged else .ok (.busOffset (byte.getLsbD 7) (byte.extractLsb' 0 7))

/-- Format I2C_BYTE: selector 0 an address frame, 1 an offset frame, 2 a data frame (R91; its nine bits are what the wire
shows, none is an operand), 3 the master's acknowledge bit (R93; the eight byte bits are don't-care). -/
def decodeI2cByte (selector : Nat) (byte : Byte) (ack : Bool) : Except DecodeError Instr :=
  match selector with
  | 0 => decodeAddressFrame byte ack
  | 1 => decodeOffsetFrame byte ack
  | 2 => .ok .busRdbyte
  | 3 => .ok (if ack then .busMnack else .busMack)
  | _ => .error .unknownSelector

/-- Format I2C_COND: selector 0 a pulse of the edge detector, 1 a bus condition, 2 a repeated START. -/
def decodeI2cCond (selector pattern : Nat) : Except DecodeError Instr :=
  match selector, pattern with
  | 0, 0b1100_0100 => .ok .edgeSclRising
  | 0, 0b0011_0001 => .ok .edgeSdaRising
  | 0, 0b0011_0010 => .ok .edgeSdaFalling
  | 0, 0b0111_0110 => .ok .edgeStart
  | 1, 0b0111_0110 => .ok (.busStart false)
  | 2, 0b0111_0110 => .ok (.busStart true)
  | 1, 0b0111_0101 => .ok .busStop
  | 0, _ => .error .unknownPattern
  | 1, _ => .error .unknownPattern
  | 2, _ => .error .unknownPattern
  | _, _ => .error .unknownSelector

/-- Format STATE: selector 0 a row of the transition table, 1 and 2 the overrides in their order of priority, 3 and 4 the
datapath writes the states command (4 the drive latch, which shares its state with the bit select). -/
def decodeState (selector pattern : Nat) : Except DecodeError Instr :=
  match selector, pattern with
  | 0, 0 => .ok .stWaitStart
  | 0, 1 => .ok .stRcvAddress
  | 0, 2 => .ok .stAckAddress0
  | 0, 3 => .ok .stAckAddress1
  | 0, 4 => .ok .stAckAddress2
  | 0, 5 => .ok .stRcvOffset
  | 0, 6 => .ok .stAckOffset0
  | 0, 7 => .ok .stAckOffset1
  | 0, 8 => .ok .stAckOffset2
  | 0, 9 => .ok .stRead
  | 0, 10 => .ok .stAckRead
  | 1, 15 => .ok .ovrHpd
  | 2, 15 => .ok .ovrStart
  | 3, 1 => .ok .dirLatch
  | 3, 5 => .ok .offLoad
  | 3, 9 => .ok .drvBit
  | 3, 10 => .ok .offInc
  | 4, 9 => .ok .drvEn
  | 0, _ => .error .unknownPattern
  | 1, _ => .error .unknownPattern
  | 2, _ => .error .unknownPattern
  | 3, _ => .error .unknownPattern
  | 4, _ => .error .unknownPattern
  | _, _ => .error .unknownSelector

/-- Format TICK: the selector is the row's place among the TICK rows of the table; the pattern is empty. -/
def decodeTick (selector pattern : Nat) : Except DecodeError Instr :=
  if pattern ≠ 0 then .error .unknownPattern else
  match selector with
  | 0 => .ok .syncScl
  | 1 => .ok .syncSda
  | 2 => .ok .sampCount
  | 3 => .ok .sampLatch
  | 4 => .ok .edgePrevScl
  | 5 => .ok .edgePrevSda
  | 6 => .ok .bitCount
  | 7 => .ok .bitShift
  | 8 => .ok .drvSdaO
  | 9 => .ok .drvSdaOe
  | 10 => .ok .hpdSync
  | 11 => .ok .hpdPin
  | 12 => .ok .evLine
  | 13 => .ok .evEdge
  | 14 => .ok .evPrev
  | 15 => .ok .evPending
  | 16 => .ok .evCapture
  | 17 => .ok .evIrq
  | 18 => .ok .dbgTaps
  | 19 => .ok .crcFull
  | 20 => .ok .crcSrcStb
  | 21 => .ok .crcFifoOut
  | 22 => .ok .crcFifoIn
  | 23 => .ok .crcSinkAck
  | 24 => .ok .crcSrcPayload
  | 25 => .ok .crcSrcEop
  | 26 => .ok .crcBufUpdate
  | 27 => .ok .crcEngineNext
  | 28 => .ok .crcEngineAcc
  | 29 => .ok .crcSrcError
  | 30 => .ok .crcBusy
  | _ => .error .unknownSelector

/-- Format CSR: the selector is four times the register's place in the table of 10_state.md R52 (HPD_NOTIF, HPD_EN,
EV_STATUS, EV_PENDING, EV_CAPTURED) plus 0 for a read, 1 for a write, 2 for a clear. Only a write carries data. -/
def decodeCsr (selector : Nat) (data : Byte) (ninth : Bool) : Except DecodeError Instr :=
  if ninth then .error .unknownPattern else
  match selector with
  | 5 => .ok (.csrWrHpdEn data)
  | 0 => if data = 0 then .ok .csrRdHpdNotif else .error .unknownPattern
  | 4 => if data = 0 then .ok .csrRdHpdEn else .error .unknownPattern
  | 8 => if data = 0 then .ok .csrRdEvStatus else .error .unknownPattern
  | 12 => if data = 0 then .ok .csrRdEvPending else .error .unknownPattern
  | 14 => if data = 0 then .ok .csrClrEv else .error .unknownPattern
  | 16 => if data = 0 then .ok .csrRdEvCaptured else .error .unknownPattern
  | _ => .error .unknownSelector

/-- Format STREAM: the pattern is the checker's state. -/
def decodeStream (selector pattern : Nat) : Except DecodeError Instr :=
  match selector, pattern with
  | 0, 0 => .ok .cstReset
  | 0, 1 => .ok .cstIdle
  | 0, 2 => .ok .cstCopy
  | 0, _ => .error .unknownPattern
  | _, _ => .error .unknownSelector

/-- The decoder. -/
def decode (w : OpWord) : Except DecodeError Instr :=
  if w.reservedClear then
    match w.formatCode.toNat with
    | 0 => decodeI2cByte w.selector.toNat w.byte w.ack
    | 1 => decodeI2cCond w.selector.toNat w.pattern.toNat
    | 2 => decodeState w.selector.toNat w.pattern.toNat
    | 3 => decodeTick w.selector.toNat w.pattern.toNat
    | 4 => decodeCsr w.selector.toNat w.byte w.ack
    | 5 => decodeStream w.selector.toNat w.pattern.toNat
    | _ => .error .unknownFormat
  else .error .reservedBits

/-! ## The encoder -/

/-- The format's code. -/
def Format.code : Format → BitVec 4
  | .i2cByte => 0#4
  | .i2cCond => 1#4
  | .state => 2#4
  | .tick => 3#4
  | .csr => 4#4
  | .stream => 5#4

/-- The byte of an address frame: `addr` in bits 7..1, the direction in bit 0 (R89). -/
def addressByte (addr : BitVec 7) (rw : Bool) : Byte := BitVec.concat addr rw

/-- The byte of an offset frame: the ignored bit 7, then the offset (R90). -/
def offsetByte (ignored : Bool) (off : BitVec 7) : Byte := BitVec.cons ignored off

/-- The selector of an operation's row. -/
def Instr.selector : Instr → BitVec 8
  | .syncScl => 0#8
  | .syncSda => 1#8
  | .sampCount => 2#8
  | .sampLatch => 3#8
  | .edgePrevScl => 4#8
  | .edgePrevSda => 5#8
  | .edgeSclRising => 0#8
  | .edgeSdaRising => 0#8
  | .edgeSdaFalling => 0#8
  | .edgeStart => 0#8
  | .bitCount => 6#8
  | .bitShift => 7#8
  | .dirLatch => 3#8
  | .offLoad => 3#8
  | .offInc => 3#8
  | .drvBit => 3#8
  | .drvEn => 4#8
  | .drvSdaO => 8#8
  | .drvSdaOe => 9#8
  | .ovrHpd => 1#8
  | .ovrStart => 2#8
  | .stWaitStart => 0#8
  | .stRcvAddress => 0#8
  | .stAckAddress0 => 0#8
  | .stAckAddress1 => 0#8
  | .stAckAddress2 => 0#8
  | .stRcvOffset => 0#8
  | .stAckOffset0 => 0#8
  | .stAckOffset1 => 0#8
  | .stAckOffset2 => 0#8
  | .stRead => 0#8
  | .stAckRead => 0#8
  | .busStart false => 1#8
  | .busStart true => 2#8
  | .busAddrW => 0#8
  | .busAddrR => 0#8
  | .busAddrMiss _ _ => 0#8
  | .busOffset _ _ => 1#8
  | .busRdbyte => 2#8
  | .busMack => 3#8
  | .busMnack => 3#8
  | .busStop => 1#8
  | .hpdSync => 10#8
  | .csrRdHpdNotif => 0#8
  | .csrWrHpdEn _ => 5#8
  | .csrRdHpdEn => 4#8
  | .hpdPin => 11#8
  | .evLine => 12#8
  | .evEdge => 13#8
  | .evPrev => 14#8
  | .evPending => 15#8
  | .evCapture => 16#8
  | .csrRdEvStatus => 8#8
  | .evIrq => 17#8
  | .csrRdEvPending => 12#8
  | .csrRdEvCaptured => 16#8
  | .dbgTaps => 18#8
  | .csrClrEv => 14#8
  | .crcFull => 19#8
  | .crcSrcStb => 20#8
  | .crcFifoOut => 21#8
  | .crcFifoIn => 22#8
  | .crcSinkAck => 23#8
  | .crcSrcPayload => 24#8
  | .crcSrcEop => 25#8
  | .crcBufUpdate => 26#8
  | .crcEngineNext => 27#8
  | .crcEngineAcc => 28#8
  | .crcSrcError => 29#8
  | .crcBusy => 30#8
  | .cstReset => 0#8
  | .cstIdle => 0#8
  | .cstCopy => 0#8

/-- The pattern of an operation's row. -/
def Instr.pattern : Instr → BitVec 9
  -- I2C_COND: which positions are fixed, then their values
  | .edgeSclRising => 0b0_1100_0100#9
  | .edgeSdaRising => 0b0_0011_0001#9
  | .edgeSdaFalling => 0b0_0011_0010#9
  | .edgeStart => 0b0_0111_0110#9
  | .busStart _ => 0b0_0111_0110#9
  | .busStop => 0b0_0111_0101#9
  -- STATE: the state, or 15 for every state
  | .dirLatch => 1#9
  | .offLoad => 5#9
  | .offInc => 10#9
  | .drvBit => 9#9
  | .drvEn => 9#9
  | .ovrHpd => 15#9
  | .ovrStart => 15#9
  | .stWaitStart => 0#9
  | .stRcvAddress => 1#9
  | .stAckAddress0 => 2#9
  | .stAckAddress1 => 3#9
  | .stAckAddress2 => 4#9
  | .stRcvOffset => 5#9
  | .stAckOffset0 => 6#9
  | .stAckOffset1 => 7#9
  | .stAckOffset2 => 8#9
  | .stRead => 9#9
  | .stAckRead => 10#9
  -- I2C_BYTE: the acknowledge bit as seen on the wire, then the byte
  | .busAddrW => BitVec.cons false (addressByte Config.slaveAddr false)
  | .busAddrR => BitVec.cons false (addressByte Config.slaveAddr true)
  | .busAddrMiss addr rw => BitVec.cons true (addressByte addr rw)
  | .busOffset ignored off => BitVec.cons false (offsetByte ignored off)
  | .busRdbyte => 0#9
  | .busMack => BitVec.cons false 0#8
  | .busMnack => BitVec.cons true 0#8
  -- CSR: the data word of a write
  | .csrWrHpdEn data => BitVec.cons false data
  | .csrRdHpdNotif => 0#9
  | .csrRdHpdEn => 0#9
  | .csrRdEvStatus => 0#9
  | .csrRdEvPending => 0#9
  | .csrRdEvCaptured => 0#9
  | .csrClrEv => 0#9
  -- STREAM: the checker's state
  | .cstReset => 0#9
  | .cstIdle => 1#9
  | .cstCopy => 2#9
  -- TICK: the empty pattern
  | .syncScl => 0#9
  | .syncSda => 0#9
  | .sampCount => 0#9
  | .sampLatch => 0#9
  | .edgePrevScl => 0#9
  | .edgePrevSda => 0#9
  | .bitCount => 0#9
  | .bitShift => 0#9
  | .drvSdaO => 0#9
  | .drvSdaOe => 0#9
  | .hpdSync => 0#9
  | .hpdPin => 0#9
  | .evLine => 0#9
  | .evEdge => 0#9
  | .evPrev => 0#9
  | .evPending => 0#9
  | .evCapture => 0#9
  | .evIrq => 0#9
  | .dbgTaps => 0#9
  | .crcFull => 0#9
  | .crcSrcStb => 0#9
  | .crcFifoOut => 0#9
  | .crcFifoIn => 0#9
  | .crcSinkAck => 0#9
  | .crcSrcPayload => 0#9
  | .crcSrcEop => 0#9
  | .crcBufUpdate => 0#9
  | .crcEngineNext => 0#9
  | .crcEngineAcc => 0#9
  | .crcSrcError => 0#9
  | .crcBusy => 0#9

/-- A word from its three fields. -/
def opWord (format : BitVec 4) (selector : BitVec 8) (pattern : BitVec 9) : OpWord :=
  (0#4 ++ selector ++ format ++ 0#7 ++ pattern : BitVec (4 + 8 + 4 + 7 + 9))

/-- The encoder: the word of an operation. -/
def encode (i : Instr) : OpWord := opWord i.format.code i.selector i.pattern

/-! ## The host's view of the decoder -/

/-- The script word of an operation whose bits are `w`, of which the table gives `nbits`; every bit above is 0. -/
def tableWord (nbits w : Nat) : OpWord := BitVec.ofNat 32 (w % 2 ^ nbits)

/-- The operation the decoder reads from an operation whose bits are `w`. -/
def decodeTableWord (nbits w : Nat) : Option Instr := (decode (tableWord nbits w)).toOption

end Sys2Proof
end

