-- ==== Sys2Proof/Machine/State.lean ====
section
/-! DEFINITION. Machine/State.lean: the state of the machine as plain data, and the state after reset.

A tick has two phases, "compute next state" and "commit" (00_scope.md R7): `cur` is `S(t)`, `nxt` holds the primed
registers, `wires` the wires. A rule reads `cur` and the inputs only, and assigns `nxt` or `wires` only; `commit` makes
`nxt` the next `cur`. -/

namespace Sys2Proof.Machine

/-- The reasons a step can stop with a fault: none. 60_exceptions.md R255: "A model has no `Fault` outcome: the result of a
step is always a next state." No constructor, so nothing raises one (safe). -/
inductive Fault
deriving DecidableEq, Repr

/-- The reasons a step is refused. -/
inductive Refusal where
  /-- Raised by `exec` for an operation that has no meaning yet; safe. -/
  | notModelled (mnemonic : String)
  /-- Raised by `step` when the next word of the script encodes no operation of the table; safe: the hardware's parties
  can do nothing that the word could stand for (notes/assumptions/21.md). -/
  | notAnOperation (why : DecodeError)
deriving DecidableEq, Repr

/-- The states of the EDID protocol machine (10_state.md R33); no binary code exists. -/
inductive EdidState where
  | waitStart | rcvAddress | ackAddress0 | ackAddress1 | ackAddress2
  | rcvOffset | ackOffset0 | ackOffset1 | ackOffset2 | read | ackRead
deriving DecidableEq, Repr

/-- The states of the CRC checker (10_state.md R44). -/
inductive CrcState where
  | reset | idle | copy
deriving DecidableEq, Repr

/-- One entry of the elastic buffer (10_state.md R47); `data` holds `DW` bits, zero-extended. -/
structure Entry where
  data : DataUnit
  sop : Bool
deriving DecidableEq, Repr

/-- The registers of both engines (10_state.md R20 to R47). -/
structure Regs where
  /-- first guard stage of the clock line (R20) -/
  sclS1 : Bool
  /-- second guard stage of the clock line (R20) -/
  sclS2 : Bool
  /-- first guard stage of the data line (R21) -/
  sdaS1 : Bool
  /-- second guard stage of the data line (R21) -/
  sdaS2 : Bool
  /-- oversample counter (R22) -/
  sampCount : BitVec 6
  /-- stable clock sample (R23) -/
  sclI : Bool
  /-- stable data sample (R24) -/
  sdaI : Bool
  /-- previous-tick clock sample (R25) -/
  sclR : Bool
  /-- previous-tick data sample (R26) -/
  sdaR : Bool
  /-- shift register (R27) -/
  din : Byte
  /-- bit counter, 0..8 (R28) -/
  counter : BitVec 4
  /-- direction of the last matched address byte (R29) -/
  isRead : Bool
  /-- pointer into the EDID memory (R30) -/
  offset : BitVec 7
  /-- drive latch (R31) -/
  dataDrv : Bool
  /-- the memory bit being presented (R32) -/
  dataBit : Bool
  /-- the protocol machine's state (R33) -/
  state : EdidState
  /-- first stage of the hot-plug filter (R35) -/
  hpdS1 : Bool
  /-- second stage of the hot-plug filter (R35) -/
  hpdS2 : Bool
  /-- hot-plug enable bit (R36) -/
  hpdEn : Bool
  /-- previous-tick event line (R37) -/
  evLineR : Bool
  /-- pending flag of the event (R38) -/
  evPending : Bool
  /-- captured trigger (R39) -/
  evCaptured : Bool
  /-- the checker's state (R44) -/
  cstate : CrcState
  /-- CRC running value (R45) -/
  crcAcc : Acc
  /-- elastic buffer, oldest entry first (R46) -/
  buf : List Entry
deriving DecidableEq, Repr

/-- The wires and outputs, as evaluated in the tick last evaluated (00_scope.md R14; 10_state.md R41, R42, R43). -/
structure Wires where
  sampCarry : Bool
  sclRising : Bool
  sdaRising : Bool
  sdaFalling : Bool
  start : Bool
  addrMatch : Bool
  updateIsRead : Bool
  ocLoad : Bool
  ocInc : Bool
  dataDrvEn : Bool
  dataDrvStop : Bool
  zeroDrv : Bool
  memByte : Byte
  nextState : EdidState
  evLine : Bool
  evEdge : Bool
  sdaO : Bool
  sdaOe : Bool
  /-- `none` where the pin is not wired (`HAS_HPD_EN_PIN` false, 43_hpd_event_csr.md R195) -/
  hpdEnPin : Option Bool
  hpdNotif : Bool
  hpdEnQ : Bool
  evPendingQ : Bool
  evCapturedQ : Bool
  evStatusQ : Bool
  irq : Bool
  dbgScl : Bool
  dbgSda : Bool
  dbgSdaOe : Bool
  fifoFull : Bool
  sourceStb : Bool
  fifoOut : Bool
  fifoIn : Bool
  sinkAck : Bool
  sourceData : DataUnit
  sourceSop : Bool
  sourceEop : Bool
  crcNext : Acc
  crcCe : Bool
  crcReset : Bool
  fifoReset : Bool
  sourceError : Bool
  busy : Bool
deriving DecidableEq, Repr

/-- The whole state. -/
structure State where
  /-- the committed registers `S(t)` -/
  cur : Regs
  /-- the primed registers of the tick in progress (00_scope.md R7, R12) -/
  nxt : Regs
  /-- the wires and outputs of the tick last evaluated -/
  wires : Wires
  /-- the EDID memory: the cells listed, over the free image (10_state.md R34; notes/assumptions/7.md) -/
  mem : List Host.Cell
  /-- the parameters (00_scope.md R8, R9) -/
  params : Params
  /-- the tick number `t` (00_scope.md R6) -/
  tick : Nat
  /-- the inputs of this tick and the ticks to come; past its end they are free (notes/assumptions/5.md) -/
  pending : List Inputs
  /-- the operations the outside parties will issue (notes/assumptions/2.md) -/
  script : List OpWord
  /-- what the controlling process read last -/
  swResult : Byte
  /-- the byte the bus master read last -/
  masterByte : Byte
  /-- the acknowledge level the bus master read last: false is ACK -/
  masterAck : Bool
deriving DecidableEq, Repr

/-- `S(0)` (10_state.md R53). -/
def Regs.reset : Regs where
  sclS1 := false
  sclS2 := false
  sdaS1 := false
  sdaS2 := false
  sampCount := 0#6
  sclI := false
  sdaI := false
  sclR := false
  sdaR := false
  din := 0x00#8
  counter := 0#4
  isRead := false
  offset := 0#7
  dataDrv := false
  dataBit := false
  state := .waitStart
  hpdS1 := false
  hpdS2 := false
  hpdEn := false
  evLineR := false
  evPending := false
  evCaptured := false
  cstate := .reset
  crcAcc := 0x00000000#32
  buf := []

/-- The wires before any tick has been evaluated (notes/assumptions/12.md, DESIGN CHOICE: a wire holds no state). -/
def Wires.none : Wires where
  sampCarry := false
  sclRising := false
  sdaRising := false
  sdaFalling := false
  start := false
  addrMatch := false
  updateIsRead := false
  ocLoad := false
  ocInc := false
  dataDrvEn := false
  dataDrvStop := false
  zeroDrv := false
  memByte := 0#8
  nextState := .waitStart
  evLine := false
  evEdge := false
  sdaO := false
  sdaOe := false
  hpdEnPin := Option.none
  hpdNotif := false
  hpdEnQ := false
  evPendingQ := false
  evCapturedQ := false
  evStatusQ := false
  irq := false
  dbgScl := false
  dbgSda := false
  dbgSdaOe := false
  fifoFull := false
  sourceStb := false
  fifoOut := false
  fifoIn := false
  sinkAck := false
  sourceData := 0#32
  sourceSop := false
  sourceEop := false
  crcNext := 0#32
  crcCe := false
  crcReset := false
  fifoReset := false
  sourceError := false
  busy := false

/-- The machine right after reset (10_state.md R53; 70_reset_and_hazards.md R286): `S(0)` at tick 0, the memory at the
image, the parameters as the implementation fixes them, and nothing yet done from outside. -/
def State.reset : State where
  cur := Regs.reset
  nxt := Regs.reset
  wires := Wires.none
  mem := []
  params := Config.params
  tick := 0
  pending := []
  script := []
  swResult := 0#8
  masterByte := 0#8
  masterAck := false

end Sys2Proof.Machine
end

