-- ==== Sys2Proof/Machine/Operands.lean ====
section
/-! DEFINITION. Machine/Operands.lean: the operands of the operations and where each is taken from (30_encoding.md R98,
R99): the inputs of the tick, the fields of the received byte, the unit at the checker's input. -/

namespace Sys2Proof.Machine

/-- `in(t)`: the inputs of the present tick. What the state does not fix is free (93 U1; notes/assumptions/5.md). -/
def State.now (s : State) : Inputs :=
  match s.pending with
  | i :: _ => i
  | [] => Config.envInputs s.tick

/-- The same state with the inputs of the present tick fixed. -/
def State.withNow (s : State) (i : Inputs) : State := { s with pending := i :: s.pending.tail }

/-! ## The received byte (R89, R90, R98) -/

/-- `addr` = `din[7:1]`. -/
def rxAddr (s : State) : BitVec 7 := s.cur.din.extractLsb' 1 7

/-- `rw` = `din[0]`. -/
def rxRw (s : State) : Bool := s.cur.din.getLsbD 0

/-- `off` = `din[6:0]`; `din[7]` is dropped (41_byte_engine.md R135). -/
def rxOff (s : State) : BitVec 7 := s.cur.din.extractLsb' 0 7

/-- `{din[6:0], sda_i}`: the byte after one more received bit (41_byte_engine.md R131). -/
def shiftedIn (s : State) : Byte := BitVec.concat (s.cur.din.extractLsb' 0 7) s.cur.sdaI

/-- The bits of a byte in the order they stand on the wire, most significant first (R88; 20_memory.md R65). -/
def wireBits (b : Byte) : List Bool :=
  [b.getLsbD 7, b.getLsbD 6, b.getLsbD 5, b.getLsbD 4, b.getLsbD 3, b.getLsbD 2, b.getLsbD 1, b.getLsbD 0]

/-! ## Software data (10_state.md R52; notes/assumptions/13.md) -/

/-- The bit a write carries: bit 0; the bits above are ignored. -/
def softwareBit (data : Byte) : Bool := data.getLsbD 0

/-- What a read of a one-bit register returns: the bit at position 0, the bits above 0. -/
def softwareWord (b : Bool) : Byte := BitVec.setWidth 8 (BitVec.ofBool b)

/-! ## The unit at the checker's input (R99) -/

/-- `RATIO` (00_scope.md R9). -/
def ratio (s : State) : Nat := s.params.dw.ratio

/-- `level`, the number of entries the buffer holds (10_state.md R46). -/
def level (s : State) : Nat := s.cur.buf.length

/-- The low `DW` bits of a data input, zero-extended (00_scope.md R11). -/
def unitOf (w : DataWidth) (d : DataUnit) : DataUnit := (d.setWidth w.bits).setWidth 32

/-- `sink_data`, `DW` bits. -/
def sinkUnit (s : State) : DataUnit := unitOf s.params.dw s.now.sinkData

/-- The entry the input record would be stored as (10_state.md R47). -/
def sinkEntry (s : State) : Entry := { data := sinkUnit s, sop := s.now.sinkSop }

end Sys2Proof.Machine
end

