-- ==== Sys2Proof/Machine/Flags.lean ====
section
/-! DEFINITION. Machine/Flags.lean: every one-bit wire of the two engines (10_state.md R42, R43, R51), the rows of the two
transition tables with the strobes they raise, and the priority of the overrides. Each is a function of `S(t)` and `in(t)`. -/

namespace Sys2Proof.Machine

/-! ## Sampler and edge detector (40_sync_edge.md) -/

/-- `samp_carry` (R113). -/
def sampCarry (s : State) : Bool := s.cur.sampCount == BitVec.ofNat 6 (Config.nSamp - 1)

/-- `scl_rising` (R117). -/
def sclRising (s : State) : Bool := s.cur.sclI && !s.cur.sclR

/-- `sda_rising` (R118); no rule reads it. -/
def sdaRising (s : State) : Bool := s.cur.sdaI && !s.cur.sdaR

/-- `sda_falling` (R119). -/
def sdaFalling (s : State) : Bool := !s.cur.sdaI && s.cur.sdaR

/-- `start` (R120). -/
def start (s : State) : Bool := s.cur.sclI && sdaFalling s

/-! ## The protocol machine (42_edid_fsm.md) -/

/-- `c8` of R168: the byte is complete. -/
def byteDone (s : State) : Bool := s.cur.counter == 8#4

/-- `addr_match` (R154). -/
def addrMatch (s : State) : Bool := rxAddr s == Config.slaveAddr

/-- `zero_drv` (R167). -/
def zeroDrv (s : State) : Bool :=
  match s.cur.state with
  | .ackAddress1 => true
  | .ackAddress2 => true
  | .ackOffset1 => true
  | .ackOffset2 => true
  | .waitStart => false
  | .rcvAddress => false
  | .ackAddress0 => false
  | .rcvOffset => false
  | .ackOffset0 => false
  | .read => false
  | .ackRead => false

/-- What a row of the transition table yields (R150): the proposed next state and the strobes. -/
structure Row where
  next : EdidState
  updateIsRead : Bool
  ocLoad : Bool
  ocInc : Bool
  dataDrvEn : Bool
  dataDrvStop : Bool
deriving DecidableEq, Repr

/-- A row that raises no strobe. -/
def quietRow (next : EdidState) : Row where
  next := next
  updateIsRead := false
  ocLoad := false
  ocInc := false
  dataDrvEn := false
  dataDrvStop := false

/-- R153. -/
def rowWaitStart : Row := quietRow .waitStart

/-- R154. -/
def rowRcvAddress (s : State) : Row :=
  if byteDone s then
    if addrMatch s then { quietRow .ackAddress0 with updateIsRead := true }
    else quietRow .waitStart
  else quietRow .rcvAddress

/-- R155. -/
def rowAckAddress0 (s : State) : Row := quietRow (if s.cur.sclI then .ackAddress0 else .ackAddress1)

/-- R156. -/
def rowAckAddress1 (s : State) : Row := quietRow (if s.cur.sclI then .ackAddress2 else .ackAddress1)

/-- R157. -/
def rowAckAddress2 (s : State) : Row :=
  quietRow (if s.cur.sclI then .ackAddress2 else if s.cur.isRead then .read else .rcvOffset)

/-- R160. -/
def rowRcvOffset (s : State) : Row :=
  if byteDone s then { quietRow .ackOffset0 with ocLoad := true } else quietRow .rcvOffset

/-- R161. -/
def rowAckOffset0 (s : State) : Row := quietRow (if s.cur.sclI then .ackOffset0 else .ackOffset1)

/-- R162. -/
def rowAckOffset1 (s : State) : Row := quietRow (if s.cur.sclI then .ackOffset2 else .ackOffset1)

/-- R163: the successor is `RCV_ADDRESS`. -/
def rowAckOffset2 (s : State) : Row := quietRow (if s.cur.sclI then .ackOffset2 else .rcvAddress)

/-- R164. -/
def rowRead (s : State) : Row :=
  if s.cur.sclI then quietRow .read
  else if byteDone s then { quietRow .ackRead with dataDrvStop := true }
  else { quietRow .read with dataDrvEn := true }

/-- R165: the increment is made for ACK and for NACK alike. -/
def rowAckRead (s : State) : Row :=
  if sclRising s then { quietRow (if s.cur.sdaI then .waitStart else .read) with ocInc := true }
  else quietRow .ackRead

/-- The row of the current state (R150, R168). -/
def currentRow (s : State) : Row :=
  match s.cur.state with
  | .waitStart => rowWaitStart
  | .rcvAddress => rowRcvAddress s
  | .ackAddress0 => rowAckAddress0 s
  | .ackAddress1 => rowAckAddress1 s
  | .ackAddress2 => rowAckAddress2 s
  | .rcvOffset => rowRcvOffset s
  | .ackOffset0 => rowAckOffset0 s
  | .ackOffset1 => rowAckOffset1 s
  | .ackOffset2 => rowAckOffset2 s
  | .read => rowRead s
  | .ackRead => rowAckRead s

/-- `next_state` (R150): the row's proposal, then START, then the disable, which has the highest priority. -/
def nextState (s : State) : EdidState :=
  if !s.cur.hpdEn then .waitStart
  else if start s then .rcvAddress
  else (currentRow s).next

/-! ## The data-line driver (41_byte_engine.md) -/

/-- `sda_oe` (R143). -/
def sdaOe (s : State) : Bool := zeroDrv s || (s.cur.dataDrv && !s.cur.dataBit)

/-! ## Hot-plug and event (43_hpd_event_csr.md) -/

/-- `hpd_notif` (R192). -/
def hpdNotif (s : State) : Bool := if s.params.hasHpdPin then s.cur.hpdS2 else true

/-- `hpd_en_pin` (R195); absent where the pin is not wired. -/
def hpdEnPin (s : State) : Option Bool := if s.params.hasHpdEnPin then some s.cur.hpdEn else none

/-- `ev_line` (R198). -/
def evLine (s : State) : Bool := s.cur.state != .waitStart

/-- `ev_edge` (R199): either direction. -/
def evEdge (s : State) : Bool := evLine s != s.cur.evLineR

/-! ## The checker's handshake (44_crc_checker.md) -/

/-- `fifo_full` (R220). -/
def fifoFull (s : State) : Bool := level s == ratio s

/-- `source_stb` (R221). -/
def sourceStb (s : State) : Bool := s.now.sinkStb && fifoFull s

/-- `fifo_out` (R222). -/
def fifoOut (s : State) : Bool := sourceStb s && s.now.sourceAck

/-- `fifo_in` (R223). -/
def fifoIn (s : State) : Bool := s.now.sinkStb && (!fifoFull s || fifoOut s)

/-- `sink_ack` (R224). -/
def sinkAck (s : State) : Bool := fifoIn s

/-- `source_eop` (R226): the mark of the unit standing at the input. -/
def sourceEop (s : State) : Bool := s.now.sinkEop

/-- `busy` (R241). -/
def busy (s : State) : Bool := s.cur.cstate != .idle

/-- What a row of the checker's control machine yields (R237). -/
structure CrcRow where
  next : CrcState
  crcReset : Bool
  fifoReset : Bool
  crcCe : Bool
deriving DecidableEq, Repr

/-- R238. -/
def rowReset : CrcRow where
  next := .idle
  crcReset := true
  fifoReset := true
  crcCe := false

/-- R239: the end mark is not looked at. -/
def rowIdle (s : State) : CrcRow :=
  let begins := s.now.sinkStb && s.now.sinkSop && sinkAck s
  { next := if begins then .copy else .idle
    crcReset := false
    fifoReset := false
    crcCe := begins }

/-- R240: the start mark is not looked at. -/
def rowCopy (s : State) : CrcRow :=
  let accepted := s.now.sinkStb && sinkAck s
  { next := if accepted && s.now.sinkEop then .reset else .copy
    crcReset := false
    fifoReset := false
    crcCe := accepted }

/-- The row of the checker's current state (R237). -/
def currentCrcRow (s : State) : CrcRow :=
  match s.cur.cstate with
  | .reset => rowReset
  | .idle => rowIdle s
  | .copy => rowCopy s

end Sys2Proof.Machine
end

