-- ==== Sys2Proof/Machine/Ops.lean ====
section
/-! DEFINITION. Machine/Ops.lean: the named operations over memory, registers and wires that the meanings share: the
memory's read port, staging and commit, the CRC engine, the elastic buffer, the event's entry and return, and the fetch of
the script's next word. -/

namespace Sys2Proof.Machine

/-! ## The EDID memory (20_memory.md R61, R63) -/

/-- The byte a list of cells gives for an address, if it lists it. -/
def Memory.find : List Host.Cell → Nat → Option Byte
  | [], _ => none
  | (k, v) :: m, a => if k = a then some v else Memory.find m a

/-- The byte at an address: the cell listed, else the image (notes/assumptions/7.md). -/
def Memory.read (m : List Host.Cell) (a : BitVec 7) : Byte := (Memory.find m a.toNat).getD (Config.edidImage a)

/-- The cells that say that address `a` holds `b`: none where the image says so. -/
def Memory.cell (a : BitVec 7) (b : Byte) : List Host.Cell :=
  if b = Config.edidImage a then [] else [(a.toNat, b)]

/-- Change one byte and keep the canonical form. Only the configuration loader uses it: no operation of the hardware
writes the memory (R63). -/
def Memory.write : List Host.Cell → BitVec 7 → Byte → List Host.Cell
  | [], a, b => Memory.cell a b
  | (k, v) :: m, a, b =>
    if a.toNat < k then Memory.cell a b ++ (k, v) :: m
    else if a.toNat = k then Memory.cell a b ++ m
    else (k, v) :: Memory.write m a b

/-- The canonical form from address `lo` on: strictly rising, below 128, no cell the image already gives. -/
def Memory.wfFrom : Nat → List Host.Cell → Bool
  | _, [] => true
  | lo, (k, v) :: m =>
    decide (lo ≤ k) && decide (k < Config.memBytes) && (v != Config.edidImage (BitVec.ofNat 7 k)) && Memory.wfFrom (k + 1) m

/-- The canonical form of the memory. -/
def Memory.wf (m : List Host.Cell) : Bool := Memory.wfFrom 0 m

/-- `MemRead(a)` (R61). -/
def memRead (s : State) (a : BitVec 7) : Byte := Memory.read s.mem a

/-- `mem_byte` = `MemRead(offset)` (R61). -/
def memByte (s : State) : Byte := memRead s s.cur.offset

/-- `mem_byte[7 - counter]` (41_byte_engine.md R138). For a `counter` above 7 the rules select nothing
(notes/assumptions/10.md). -/
def bitToSend (s : State) : Bool :=
  if s.cur.counter.toNat < 8 then (memByte s).getLsbD (7 - s.cur.counter.toNat) else Config.bitBeyondByte s.tick

/-! ## Staging and commit (00_scope.md R7, R12) -/

/-- Assign primed registers. -/
def State.stage (s : State) (f : State → Regs → Regs) : State := { s with nxt := f s s.nxt }

/-- Give wires their values. -/
def State.drive (s : State) (g : State → Wires → Wires) : State := { s with wires := g s s.wires }

/-- What a meaning answers. -/
abbrev Result := Host.Outcome State Fault Refusal

/-- The commit at the end of a tick: the primed registers become `S(t+1)`, and the next tick's inputs come up. -/
def commit (s : State) (n : Regs) (w : Wires) : State :=
  { s with cur := n, nxt := n, wires := w, tick := s.tick + 1, pending := s.pending.tail }

/-! ## The event as the interrupt source (60_exceptions.md R261 to R265) -/

/-- Event entry (R264): sets `ev_pending` (43_hpd_event_csr.md R201) and writes the line's value into `ev_captured` (R202);
"the hardware saves nothing and redirects nothing". -/
def eventEntry (s : State) (n : Regs) : Regs := { n with evPending := true, evCaptured := evLine s }

/-- Event return (R265): the consumer's clear sets `ev_pending` to 0 and restores nothing. -/
def eventReturn (n : Regs) : Regs := { n with evPending := false }

/-! ## The CRC engine (44_crc_checker.md R232 to R236) -/

/-- One bit of the reference engine (R236). -/
def refBit (acc : Acc) (b : Bool) : Acc :=
  if acc.getLsbD 0 != b then (acc >>> 1) ^^^ 0xEDB88320#32 else acc >>> 1

/-- `crc_update` of the reference engine over the low `n` bits of a unit, bit 0 first (R236). -/
def refUpdate (acc : Acc) (d : DataUnit) : Nat → Acc
  | 0 => acc
  | n + 1 => refBit (refUpdate acc d n) (d.getLsbD n)

/-- `CRC_INIT` (R9). -/
def crcInit (s : State) : Acc :=
  match s.params.engine with
  | .external => Config.crcInit
  | .reference => 0xFFFFFFFF#32

/-- `crc_update` (R9). -/
def crcUpdate (s : State) (acc : Acc) (u : DataUnit) : Acc :=
  match s.params.engine with
  | .external => Config.crcUpdate s.params.dw acc u
  | .reference => refUpdate acc u s.params.dw.bits

/-- `crc_error` (R9). -/
def crcError (s : State) (acc : Acc) : Bool :=
  match s.params.engine with
  | .external => Config.crcError acc
  | .reference => acc != 0xDEBB20E3#32

/-- `crc_next` (R232). -/
def crcNext (s : State) : Acc := crcUpdate s s.cur.crcAcc (sinkUnit s)

/-- `source_error` (R234). -/
def sourceError (s : State) : Bool := crcError s (crcNext s)

/-! ## The elastic buffer (44_crc_checker.md R225, R228; 20_memory.md R81) -/

/-- `source_data`: the head's data; a free value while the buffer is empty (R227; notes/assumptions/9.md). -/
def sourceData (s : State) : DataUnit :=
  match s.cur.buf with
  | e :: _ => e.data
  | [] => unitOf s.params.dw (Config.emptyHeadData s.tick)

/-- `source_sop`: the head's start mark; a free value while the buffer is empty (R227; notes/assumptions/9.md). -/
def sourceSop (s : State) : Bool :=
  match s.cur.buf with
  | e :: _ => e.sop
  | [] => Config.emptyHeadSop s.tick

/-- The buffer after the pop, if there is one (R228). -/
def popped (s : State) : List Entry := if fifoOut s then s.cur.buf.tail else s.cur.buf

/-- The buffer after the pop and the push, if there are any (R228). -/
def poppedPushed (s : State) : List Entry := if fifoIn s then popped s ++ [sinkEntry s] else popped s

/-- `buf'` (R228): the clear wins over push and pop. -/
def bufNext (s : State) : List Entry := if (currentCrcRow s).fifoReset then [] else poppedPushed s

/-! ## The script (notes/assumptions/2.md) -/

/-- The next operation word of the script, and the state with it taken off. -/
def fetchWord (s : State) : Option (OpWord × State) :=
  match s.script with
  | w :: rest => some (w, { s with script := rest })
  | [] => none

/-- Put one operation's word where the next step fetches. -/
def loadWord (s : State) (w : OpWord) : State := { s with script := [w] }

/-! ## Configuration (70_reset_and_hazards.md R289; 00_scope.md R10) -/

/-- Why a configuration is refused. -/
inductive ConfigError where
  /-- a unit width that does not divide 32, or 0 (93 U7) -/
  | unitWidth
  /-- an image with other than 128 entries, or an entry above 255 (93 U8) -/
  | image
deriving DecidableEq, Repr

/-- The unit width of a number of bits (R10). -/
def widthOf : Nat → Option DataWidth
  | 1 => some .w1
  | 2 => some .w2
  | 4 => some .w4
  | 8 => some .w8
  | 16 => some .w16
  | 32 => some .w32
  | _ => none

/-- Store a list of bytes from an address on. -/
def loadImage : List Host.Cell → Nat → List Nat → List Host.Cell
  | m, _, [] => m
  | m, a, b :: bs => loadImage (Memory.write m (BitVec.ofNat 7 a) (BitVec.ofNat 8 b)) (a + 1) bs

/-- The reset state of a machine configured before its run: "a 128-byte initial memory image supplied at configuration
time", and the parameters. -/
def configure (dw : Nat) (image : List Nat) (hasHpdPin hasHpdEnPin : Bool) (engine : CrcEngine) :
    Except ConfigError State :=
  match widthOf dw with
  | none => .error .unitWidth
  | some w =>
    if image.length = Config.memBytes ∧ image.all (fun b => decide (b < 256)) = true then
      .ok { State.reset with
        mem := loadImage [] 0 image
        params := { dw := w, hasHpdPin := hasHpdPin, hasHpdEnPin := hasHpdEnPin, engine := engine } }
    else .error .image

end Sys2Proof.Machine
end

