-- ==== Sys2Proof/Machine/CrcChecker.lean ====
section
/-! DEFINITION. Machine/CrcChecker.lean: the frame CRC checker (44_crc_checker.md): handshake, elastic buffer, CRC engine
and control machine. The handshake is not gated by `cstate` (R228). -/

namespace Sys2Proof.Machine

/-! ## The handshake -/

/-- R220. -/
def driveFull (s : State) (w : Wires) : Wires := { w with fifoFull := fifoFull s }

def execCrcFull (s : State) : Result := .next (s.drive driveFull)

/-- R221. -/
def driveSrcStb (s : State) (w : Wires) : Wires := { w with sourceStb := sourceStb s }

def execCrcSrcStb (s : State) : Result := .next (s.drive driveSrcStb)

/-- R222. -/
def driveFifoOut (s : State) (w : Wires) : Wires := { w with fifoOut := fifoOut s }

def execCrcFifoOut (s : State) : Result := .next (s.drive driveFifoOut)

/-- R223. -/
def driveFifoIn (s : State) (w : Wires) : Wires := { w with fifoIn := fifoIn s }

def execCrcFifoIn (s : State) : Result := .next (s.drive driveFifoIn)

/-- R224. -/
def driveSinkAck (s : State) (w : Wires) : Wires := { w with sinkAck := sinkAck s }

def execCrcSinkAck (s : State) : Result := .next (s.drive driveSinkAck)

/-- R225. -/
def driveSrcPayload (s : State) (w : Wires) : Wires := { w with sourceData := sourceData s, sourceSop := sourceSop s }

def execCrcSrcPayload (s : State) : Result := .next (s.drive driveSrcPayload)

/-- R226. -/
def driveSrcEop (s : State) (w : Wires) : Wires := { w with sourceEop := sourceEop s }

def execCrcSrcEop (s : State) : Result := .next (s.drive driveSrcEop)

/-! ## CRC.BUF_UPDATE -/

/-- R228. -/
def stageBufUpdate (s : State) (n : Regs) : Regs := { n with buf := bufNext s }

def execCrcBufUpdate (s : State) : Result := .next (s.stage stageBufUpdate)

/-! ## CRC.ENGINE_NEXT, CRC.ENGINE_ACC, CRC.SRC_ERROR -/

/-- R232. -/
def driveCrcNext (s : State) (w : Wires) : Wires := { w with crcNext := crcNext s }

def execCrcEngineNext (s : State) : Result := .next (s.drive driveCrcNext)

/-- R233. -/
def stageEngineAcc (s : State) (n : Regs) : Regs :=
  { n with
    crcAcc :=
      if (currentCrcRow s).crcReset then crcInit s
      else if (currentCrcRow s).crcCe then crcNext s
      else n.crcAcc }

def execCrcEngineAcc (s : State) : Result := .next (s.stage stageEngineAcc)

/-- R234. -/
def driveSrcError (s : State) (w : Wires) : Wires := { w with sourceError := sourceError s }

def execCrcSrcError (s : State) : Result := .next (s.drive driveSrcError)

/-! ## CRC.BUSY -/

/-- R241. -/
def driveBusy (s : State) (w : Wires) : Wires := { w with busy := busy s }

def execCrcBusy (s : State) : Result := .next (s.drive driveBusy)

/-! ## CST.RESET, CST.IDLE, CST.COPY -/

/-- The commit of `cstate` (R237). -/
def stageCstate (s : State) (n : Regs) : Regs := { n with cstate := (currentCrcRow s).next }

/-- The primed registers a row assigns: `cstate`, and what its strobes command of the accumulator and the buffer. -/
def stageCrcRow (s : State) (n : Regs) : Regs := stageBufUpdate s (stageEngineAcc s (stageCstate s n))

/-- The strobes a row raises; those it does not name are 0 (R237). -/
def driveCrcRow (s : State) (w : Wires) : Wires :=
  { w with
    crcReset := (currentCrcRow s).crcReset
    fifoReset := (currentCrcRow s).fifoReset
    crcCe := (currentCrcRow s).crcCe }

/-- A row is selected by the value of `cstate` (30_encoding.md R108); one that is not selected does nothing. -/
def performCrcRow (selector : CrcState) (s : State) : State :=
  if s.cur.cstate = selector then (s.stage stageCrcRow).drive driveCrcRow else s

/-- R238. -/
def execCstReset (s : State) : Result := .next (performCrcRow .reset s)

/-- R239. -/
def execCstIdle (s : State) : Result := .next (performCrcRow .idle s)

/-- R240. -/
def execCstCopy (s : State) : Result := .next (performCrcRow .copy s)

end Sys2Proof.Machine
end

