-- ==== Sys2Proof/Machine/ByteEngine.lean ====
section
/-! DEFINITION. Machine/ByteEngine.lean: bit counter, shift register, is-read flag, offset register and data-line driver
(41_byte_engine.md). The strobes come from the row of the protocol machine's state (Flags.lean). -/

namespace Sys2Proof.Machine

/-! ## BIT.COUNT, BIT.SHIFT -/

/-- R130: START wins; at 8 the next rising edge takes the counter to 0. -/
def stageBitCount (s : State) (n : Regs) : Regs :=
  { n with
    counter :=
      if start s then 0#4
      else if sclRising s then (if byteDone s then 0#4 else s.cur.counter + 1#4)
      else n.counter }

def execBitCount (s : State) : Result := .next (s.stage stageBitCount)

/-- R131: no shift in a START tick, and none on the ninth clock. -/
def stageBitShift (s : State) (n : Regs) : Regs :=
  { n with din := if !start s && sclRising s && !byteDone s then shiftedIn s else n.din }

def execBitShift (s : State) : Result := .next (s.stage stageBitShift)

/-! ## DIR.LATCH -/

/-- R133. -/
def stageDirLatch (s : State) (n : Regs) : Regs :=
  { n with isRead := if (currentRow s).updateIsRead then rxRw s else n.isRead }

def execDirLatch (s : State) : Result := .next (s.stage stageDirLatch)

/-! ## OFF.LOAD, OFF.INC -/

/-- R135. -/
def stageOffLoad (s : State) (n : Regs) : Regs :=
  { n with offset := if (currentRow s).ocLoad then rxOff s else n.offset }

def execOffLoad (s : State) : Result := .next (s.stage stageOffLoad)

/-- R136: modulo 128; load before increment. -/
def stageOffInc (s : State) (n : Regs) : Regs :=
  { n with offset := if !(currentRow s).ocLoad && (currentRow s).ocInc then s.cur.offset + 1#7 else n.offset }

def execOffInc (s : State) : Result := .next (s.stage stageOffInc)

/-! ## DRV.BIT, DRV.EN -/

/-- R138. -/
def stageDrvBit (s : State) (n : Regs) : Regs :=
  { n with dataBit := if (currentRow s).dataDrvEn then bitToSend s else n.dataBit }

/-- R61: the read port shows the byte at the offset in every tick. -/
def driveMemByte (s : State) (w : Wires) : Wires := { w with memByte := memByte s }

def execDrvBit (s : State) : Result := .next ((s.stage stageDrvBit).drive driveMemByte)

/-- R139; nothing else clears the latch (R140). -/
def stageDrvEn (s : State) (n : Regs) : Regs :=
  { n with
    dataDrv :=
      if (currentRow s).dataDrvEn then true
      else if (currentRow s).dataDrvStop then false
      else n.dataDrv }

def execDrvEn (s : State) : Result := .next (s.stage stageDrvEn)

/-! ## DRV.SDA_O, DRV.SDA_OE -/

/-- R142: the driven value is the constant 0. -/
def driveSdaO (_ : State) (w : Wires) : Wires := { w with sdaO := false }

def execDrvSdaO (s : State) : Result := .next (s.drive driveSdaO)

/-- R143, and the acknowledge request of R167 it reads. -/
def driveSdaOe (s : State) (w : Wires) : Wires := { w with zeroDrv := zeroDrv s, sdaOe := sdaOe s }

def execDrvSdaOe (s : State) : Result := .next (s.drive driveSdaOe)

end Sys2Proof.Machine
end

