-- ==== Sys2Proof/Machine/EdidFsm.lean ====
section
/-! DEFINITION. Machine/EdidFsm.lean: the EDID protocol machine, its two overrides and its eleven rows (42_edid_fsm.md
part 1). The rows themselves are in Flags.lean. -/

namespace Sys2Proof.Machine

/-- The commit of `state` (R150). -/
def stageState (s : State) (n : Regs) : Regs := { n with state := nextState s }

/-! ## OVR.HPD, OVR.START -/

/-- R151: whatever the row and START say. It changes `state` only. -/
def stageOvrHpd (s : State) (n : Regs) : Regs := { n with state := if !s.cur.hpdEn then .waitStart else n.state }

def execOvrHpd (s : State) : Result := .next (s.stage stageOvrHpd)

/-- R152: whatever the row says; a cleared enable bit wins. It changes `state` only. -/
def stageOvrStart (s : State) (n : Regs) : Regs :=
  { n with state := if start s && s.cur.hpdEn then .rcvAddress else n.state }

def execOvrStart (s : State) : Result := .next (s.stage stageOvrStart)

/-! ## The rows -/

/-- The datapath writes the strobes of the current row command (R133, R135, R136, R138, R139). An override of the same
tick does not suppress them (R166). -/
def stageStrobes (s : State) (n : Regs) : Regs :=
  stageDrvEn s (stageDrvBit s (stageOffInc s (stageOffLoad s (stageDirLatch s n))))

/-- The primed registers a row assigns: `state` through R150, and what its strobes command. -/
def stageRow (s : State) (n : Regs) : Regs := stageStrobes s (stageState s n)

/-- The wires a row gives: its strobes (those it does not name are 0), `addr_match`, `zero_drv` and `next_state`. -/
def driveRow (s : State) (w : Wires) : Wires :=
  { w with
    addrMatch := addrMatch s
    updateIsRead := (currentRow s).updateIsRead
    ocLoad := (currentRow s).ocLoad
    ocInc := (currentRow s).ocInc
    dataDrvEn := (currentRow s).dataDrvEn
    dataDrvStop := (currentRow s).dataDrvStop
    zeroDrv := zeroDrv s
    nextState := nextState s }

/-- A row is selected by the value of `state` (30_encoding.md R108); one that is not selected does nothing. -/
def performRow (selector : EdidState) (s : State) : State :=
  if s.cur.state = selector then (s.stage stageRow).drive driveRow else s

/-- R153. -/
def execStWaitStart (s : State) : Result := .next (performRow .waitStart s)

/-- R154. -/
def execStRcvAddress (s : State) : Result := .next (performRow .rcvAddress s)

/-- R155. -/
def execStAckAddress0 (s : State) : Result := .next (performRow .ackAddress0 s)

/-- R156. -/
def execStAckAddress1 (s : State) : Result := .next (performRow .ackAddress1 s)

/-- R157. -/
def execStAckAddress2 (s : State) : Result := .next (performRow .ackAddress2 s)

/-- R160. -/
def execStRcvOffset (s : State) : Result := .next (performRow .rcvOffset s)

/-- R161. -/
def execStAckOffset0 (s : State) : Result := .next (performRow .ackOffset0 s)

/-- R162. -/
def execStAckOffset1 (s : State) : Result := .next (performRow .ackOffset1 s)

/-- R163. -/
def execStAckOffset2 (s : State) : Result := .next (performRow .ackOffset2 s)

/-- R164. -/
def execStRead (s : State) : Result := .next (performRow .read s)

/-- R165. -/
def execStAckRead (s : State) : Result := .next (performRow .ackRead s)

end Sys2Proof.Machine
end

