-- ==== Sys2Proof/Machine/HpdEvent.lean ====
section
/-! DEFINITION. Machine/HpdEvent.lean: hot-plug block, event source, register accesses and debug taps
(43_hpd_event_csr.md). A register access happens in the present tick: a write or a clear acts through the tick's inputs
(10_state.md R40) and shows in the next tick, a read returns the value of the present one (R209). -/

namespace Sys2Proof.Machine

/-! ## HPD.SYNC, HPD.PIN -/

/-- R190: present only when `HAS_HPD_PIN`. -/
def stageHpdSync (s : State) (n : Regs) : Regs :=
  { n with
    hpdS1 := if s.params.hasHpdPin then s.now.hpdPin else n.hpdS1
    hpdS2 := if s.params.hasHpdPin then s.cur.hpdS1 else n.hpdS2 }

/-- R192. -/
def driveHpdNotif (s : State) (w : Wires) : Wires := { w with hpdNotif := hpdNotif s }

def execHpdSync (s : State) : Result := .next ((s.stage stageHpdSync).drive driveHpdNotif)

/-- R195. -/
def driveHpdPin (s : State) (w : Wires) : Wires := { w with hpdEnPin := hpdEnPin s }

def execHpdPin (s : State) : Result := .next (s.drive driveHpdPin)

/-! ## The enable bit -/

/-- R193: `if hpd_en_we: hpd_en' <- hpd_en_wdata`. -/
def stageHpdEn (s : State) (n : Regs) : Regs :=
  { n with hpdEn := if s.now.hpdEnWe then s.now.hpdEnWdata else n.hpdEn }

/-- CSR.WR_HPD_EN (R193): the write strobe and its data bit stand at the inputs of the present tick. DESIGN CHOICE
(notes/assumptions/30.md): the other inputs of that tick, `ev_clear` among them, stay what they were, free where nothing was
pending. -/
def execCsrWrHpdEn (data : BitVec 8) (s : State) : Result :=
  .next ((s.withNow { s.now with hpdEnWe := true, hpdEnWdata := softwareBit data }).stage stageHpdEn)

/-- R194. -/
def driveHpdEnQ (s : State) (w : Wires) : Wires := { w with hpdEnQ := s.cur.hpdEn }

/-! ## EV.LINE, EV.EDGE, EV.PREV, EV.PENDING, EV.CAPTURE, EV.IRQ -/

/-- R198. -/
def driveEvLine (s : State) (w : Wires) : Wires := { w with evLine := evLine s, evStatusQ := evLine s }

def execEvLine (s : State) : Result := .next (s.drive driveEvLine)

/-- R199. -/
def driveEvEdge (s : State) (w : Wires) : Wires := { w with evEdge := evEdge s }

def execEvEdge (s : State) : Result := .next (s.drive driveEvEdge)

/-- R200. -/
def stageEvPrev (s : State) (n : Regs) : Regs := { n with evLineR := evLine s }

def execEvPrev (s : State) : Result := .next (s.stage stageEvPrev)

/-- R201: the set wins over the clear. -/
def stageEvPending (s : State) (n : Regs) : Regs :=
  { n with
    evPending :=
      if evEdge s then (eventEntry s n).evPending
      else if s.now.evClear then (eventReturn n).evPending
      else n.evPending }

/-- R201. -/
def driveEvPendingQ (s : State) (w : Wires) : Wires := { w with evPendingQ := s.cur.evPending }

def execEvPending (s : State) : Result := .next ((s.stage stageEvPending).drive driveEvPendingQ)

/-- R202. -/
def stageEvCapture (s : State) (n : Regs) : Regs :=
  { n with evCaptured := if evEdge s then (eventEntry s n).evCaptured else n.evCaptured }

/-- R202. -/
def driveEvCapturedQ (s : State) (w : Wires) : Wires := { w with evCapturedQ := s.cur.evCaptured }

def execEvCapture (s : State) : Result := .next ((s.stage stageEvCapture).drive driveEvCapturedQ)

/-- R204. -/
def driveIrq (s : State) (w : Wires) : Wires := { w with irq := s.cur.evPending }

def execEvIrq (s : State) : Result := .next (s.drive driveIrq)

/-! ## Register reads and the clear -/

/-- The controlling process takes the value of an output in the present tick. -/
def readRegister (s : State) (value : Bool) : State := { s with swResult := softwareWord value }

/-- CSR.RD_HPD_NOTIF (R192). -/
def execCsrRdHpdNotif (s : State) : Result := .next (readRegister (s.drive driveHpdNotif) (hpdNotif s))

/-- CSR.RD_HPD_EN (R194). -/
def execCsrRdHpdEn (s : State) : Result := .next (readRegister (s.drive driveHpdEnQ) s.cur.hpdEn)

/-- CSR.RD_EV_STATUS (R203). -/
def execCsrRdEvStatus (s : State) : Result := .next (readRegister (s.drive driveEvLine) (evLine s))

/-- CSR.RD_EV_PENDING (R205): reading does not clear. -/
def execCsrRdEvPending (s : State) : Result := .next (readRegister (s.drive driveEvPendingQ) s.cur.evPending)

/-- CSR.RD_EV_CAPTURED (R206). -/
def execCsrRdEvCaptured (s : State) : Result := .next (readRegister (s.drive driveEvCapturedQ) s.cur.evCaptured)

/-- CSR.CLR_EV (R208): the clear strobe stands at the inputs of the present tick. DESIGN CHOICE (notes/assumptions/30.md): the
other inputs of that tick, `hpd_en_we` among them, stay what they were, free where nothing was pending. -/
def execCsrClrEv (s : State) : Result := .next ((s.withNow { s.now with evClear := true }).stage stageEvPending)

/-! ## DBG.TAPS -/

/-- R207: the guard's outputs and the drive-enable. -/
def driveTaps (s : State) (w : Wires) : Wires :=
  { w with dbgScl := s.cur.sclS2, dbgSda := s.cur.sdaS2, dbgSdaOe := sdaOe s }

def execDbgTaps (s : State) : Result := .next (s.drive driveTaps)

end Sys2Proof.Machine
end

