-- ==== Sys2Proof/Machine/SyncEdge.lean ====
section
/-! DEFINITION. Machine/SyncEdge.lean: input synchronizer, sampler, edge and START detector (40_sync_edge.md). Every
operation here is performed in every tick, in every state (R124). -/

namespace Sys2Proof.Machine

/-! ## SYNC.SCL, SYNC.SDA -/

/-- R110: `scl_s1' <- scl_pin`, `scl_s2' <- scl_s1`. -/
def stageSyncScl (s : State) (n : Regs) : Regs := { n with sclS1 := s.now.sclPin, sclS2 := s.cur.sclS1 }

def execSyncScl (s : State) : Result := .next (s.stage stageSyncScl)

/-- R111: `sda_s1' <- sda_pin`, `sda_s2' <- sda_s1`. -/
def stageSyncSda (s : State) (n : Regs) : Regs := { n with sdaS1 := s.now.sdaPin, sdaS2 := s.cur.sdaS1 }

def execSyncSda (s : State) : Result := .next (s.stage stageSyncSda)

/-! ## SAMP.COUNT, SAMP.LATCH -/

/-- R112: the counter runs freely modulo 64. -/
def stageSampCount (s : State) (n : Regs) : Regs := { n with sampCount := s.cur.sampCount + 1#6 }

/-- R113: the carry of that increment. -/
def driveSampCarry (s : State) (w : Wires) : Wires := { w with sampCarry := sampCarry s }

def execSampCount (s : State) : Result := .next ((s.stage stageSampCount).drive driveSampCarry)

/-- R114: on the carry both samples are taken, in the same tick; in every other tick they keep their values. -/
def stageSampLatch (s : State) (n : Regs) : Regs :=
  { n with
    sclI := if sampCarry s then s.cur.sclS2 else n.sclI
    sdaI := if sampCarry s then s.cur.sdaS2 else n.sdaI }

def execSampLatch (s : State) : Result := .next (s.stage stageSampLatch)

/-! ## EDGE.PREV_SCL, EDGE.PREV_SDA -/

/-- R115: `scl_r' <- scl_i`. -/
def stageEdgePrevScl (s : State) (n : Regs) : Regs := { n with sclR := s.cur.sclI }

def execEdgePrevScl (s : State) : Result := .next (s.stage stageEdgePrevScl)

/-- R116: `sda_r' <- sda_i`. -/
def stageEdgePrevSda (s : State) (n : Regs) : Regs := { n with sdaR := s.cur.sdaI }

def execEdgePrevSda (s : State) : Result := .next (s.stage stageEdgePrevSda)

/-! ## EDGE.SCL_RISING, EDGE.SDA_RISING, EDGE.SDA_FALLING, EDGE.START -/

/-- R117. -/
def driveSclRising (s : State) (w : Wires) : Wires := { w with sclRising := sclRising s }

def execEdgeSclRising (s : State) : Result := .next (s.drive driveSclRising)

/-- R118. -/
def driveSdaRising (s : State) (w : Wires) : Wires := { w with sdaRising := sdaRising s }

def execEdgeSdaRising (s : State) : Result := .next (s.drive driveSdaRising)

/-- R119. -/
def driveSdaFalling (s : State) (w : Wires) : Wires := { w with sdaFalling := sdaFalling s }

def execEdgeSdaFalling (s : State) : Result := .next (s.drive driveSdaFalling)

/-- R120. -/
def driveStart (s : State) (w : Wires) : Wires := { w with start := start s }

def execEdgeStart (s : State) : Result := .next (s.drive driveStart)

end Sys2Proof.Machine
end

