-- ==== Sys2Proof/Machine/Tick.lean ====
section
/-! DEFINITION. Machine/Tick.lean: one tick of the hardware, the spec's "repeatable step function" (00_scope.md R6): every
component evaluates all of its rules on `S(t)` and `in(t)`, then everything commits together (R7). -/

namespace Sys2Proof.Machine

/-- The primed registers at the end of the compute phase. A register no rule assigns keeps its value (R12). -/
def computeRegs (s : State) : Regs :=
  let n := s.cur
  -- synchronizer, sampler, edge detector
  let n := stageSyncScl s n
  let n := stageSyncSda s n
  let n := stageSampCount s n
  let n := stageSampLatch s n
  let n := stageEdgePrevScl s n
  let n := stageEdgePrevSda s n
  -- byte engine
  let n := stageBitCount s n
  let n := stageBitShift s n
  let n := stageDirLatch s n
  let n := stageOffLoad s n
  let n := stageOffInc s n
  let n := stageDrvBit s n
  let n := stageDrvEn s n
  -- protocol machine
  let n := stageState s n
  -- hot-plug, register write, event
  let n := stageHpdSync s n
  let n := stageHpdEn s n
  let n := stageEvPrev s n
  let n := stageEvPending s n
  let n := stageEvCapture s n
  -- checker
  let n := stageBufUpdate s n
  let n := stageEngineAcc s n
  stageCstate s n

/-- Every wire and output of the tick. -/
def computeWires (s : State) : Wires :=
  let w := s.wires
  let w := driveSampCarry s w
  let w := driveSclRising s w
  let w := driveSdaRising s w
  let w := driveSdaFalling s w
  let w := driveStart s w
  let w := driveMemByte s w
  let w := driveSdaO s w
  let w := driveSdaOe s w
  let w := driveRow s w
  let w := driveHpdNotif s w
  let w := driveHpdPin s w
  let w := driveHpdEnQ s w
  let w := driveEvLine s w
  let w := driveEvEdge s w
  let w := driveEvPendingQ s w
  let w := driveEvCapturedQ s w
  let w := driveIrq s w
  let w := driveTaps s w
  let w := driveFull s w
  let w := driveSrcStb s w
  let w := driveFifoOut s w
  let w := driveFifoIn s w
  let w := driveSinkAck s w
  let w := driveSrcPayload s w
  let w := driveSrcEop s w
  let w := driveCrcNext s w
  let w := driveSrcError s w
  let w := driveBusy s w
  driveCrcRow s w

/-- One tick. -/
def tick (s : State) : State := commit s (computeRegs s) (computeWires s)

/-- `k` ticks. -/
def ticks : Nat → State → State
  | 0, s => s
  | k + 1, s => ticks k (tick s)

end Sys2Proof.Machine
end

