-- ==== Sys2Proof/Machine/Bus.lean ====
section
/-! DEFINITION. Machine/Bus.lean: the bus-level operations (42_edid_fsm.md part 2). Each "follows one thing the master does
from the first tick the engine can see it to the last register it changes, and is derived from part 1": here it is what the
tick makes of the master's waveform. The waveform is the reference one of 95_test_vectors.md section 2, the boundary the
reference one of 00_scope.md R16 (notes/assumptions/16.md). -/

namespace Sys2Proof.Machine

/-- The level of the data line: wired-AND with pull-up (R16; the driven value is constant 0, R142). -/
def sdaLine (masterSda : Bool) (s : State) : Bool := masterSda && !sdaOe s

/-- The inputs of a tick in which the master holds its lines at the given levels. The parties off the bus do what `pending`
says, and past its end anything but a register write or clear: those are tokens of the script on their own (log 16). DESIGN
CHOICE (notes/assumptions/30.md): a record that CSR.CLR_EV or CSR.WR_HPD_EN has just left in `pending` is taken as it stands,
so in this first tick the strobe that the access did not set is not 0 but what it was: free, where nothing was pending. -/
def busInputs (masterScl masterSda : Bool) (s : State) : Inputs :=
  let others :=
    match s.pending with
    | i :: _ => i
    | [] => { Config.envInputs s.tick with hpdEnWe := false, evClear := false }
  { others with sclPin := masterScl, sdaPin := sdaLine masterSda s }

/-- One tick with the master's lines at the given levels. -/
def busTick (masterScl masterSda : Bool) (s : State) : State := tick (s.withNow (busInputs masterScl masterSda s))

/-- The master holds its lines for `k` ticks. -/
def holdLines : Nat → Bool → Bool → State → State
  | 0, _, _, s => s
  | k + 1, masterScl, masterSda, s => holdLines k masterScl masterSda (busTick masterScl masterSda s)

/-- A quarter of a bit period. -/
def quarter (masterScl masterSda : Bool) (s : State) : State := holdLines Config.quarter masterScl masterSda s

/-- A clock period in which the master sends a bit. -/
def sendBit (b : Bool) (s : State) : State :=
  quarter false b (quarter true b (quarter true b (quarter false b s)))

/-- The state in the tick in which the master reads the data line, `2Q` into a clock period with the line released. -/
def readPoint (s : State) : State := quarter true true (quarter false true s)

/-- The rest of that clock period. -/
def afterRead (s : State) : State := quarter false true (quarter true true s)

/-- The master reads one bit of a byte (script token `[XX]`, most significant bit first). -/
def readBit (s : State) : State :=
  let r := readPoint s
  let e := afterRead r
  { e with masterByte := BitVec.concat (e.masterByte.extractLsb' 0 7) (sdaLine true r) }

/-- The master reads the engine's acknowledge (script token `a` or `n`). -/
def readAck (s : State) : State :=
  let r := readPoint s
  { afterRead r with masterAck := sdaLine true r }

/-- The master sends bits one after the other. -/
def sendBits : List Bool → State → State
  | [], s => s
  | b :: bs, s => sendBits bs (sendBit b s)

/-- The master reads bits one after the other. -/
def readBits : Nat → State → State
  | 0, s => s
  | k + 1, s => readBits k (readBit s)

/-- The master sends a byte and reads the acknowledge. -/
def sendByte (b : Byte) (s : State) : State := readAck (sendBits (wireBits b) s)

/-- START from an idle bus (token `S`). -/
def startCondition (s : State) : State := quarter false false (quarter true false s)

/-- Repeated START (token `Sr`). -/
def repeatedStart (s : State) : State :=
  quarter false false (quarter true false (quarter true true (quarter false true s)))

/-- STOP (token `P`). -/
def stopCondition (s : State) : State := quarter true true (quarter true false (quarter false false s))

/-- BUS.START (R170). -/
def execBusStart (repeated : Bool) (s : State) : Result :=
  .next (if repeated then repeatedStart s else startCondition s)

/-- BUS.ADDR_W (R171): script `A0 a`. -/
def execBusAddrW (s : State) : Result := .next (sendByte (addressByte Config.slaveAddr false) s)

/-- BUS.ADDR_R (R172): script `A1 a`. -/
def execBusAddrR (s : State) : Result := .next (sendByte (addressByte Config.slaveAddr true) s)

/-- BUS.ADDR_MISS (R173): script `XX n`. -/
def execBusAddrMiss (addr : BitVec 7) (rw : Bool) (s : State) : Result := .next (sendByte (addressByte addr rw) s)

/-- BUS.OFFSET (R174): script `<off> a`. -/
def execBusOffset (ignored : Bool) (off : BitVec 7) (s : State) : Result := .next (sendByte (offsetByte ignored off) s)

/-- BUS.RDBYTE (R175): script `[XX]`; the master's acknowledge bit that follows is BUS.MACK or BUS.MNACK. -/
def execBusRdbyte (s : State) : Result := .next (readBits 8 s)

/-- BUS.MACK (R177): script `A`. -/
def execBusMack (s : State) : Result := .next (sendBit false s)

/-- BUS.MNACK (R178): script `N`. -/
def execBusMnack (s : State) : Result := .next (sendBit true s)

/-- BUS.STOP (R176): script `P`; the engine does not decode it. -/
def execBusStop (s : State) : Result := .next (stopCondition s)

end Sys2Proof.Machine
end

