-- ==== Sys2Proof/Machine/Dispatch.lean ====
section
/-! DEFINITION. Machine/Dispatch.lean: each operation to its meaning. -/

namespace Sys2Proof.Machine

def exec (i : Instr) (s : State) : Host.Outcome State Fault Refusal :=
  match i with
  -- synchronizer, sampler and edge detector (40_sync_edge.md)
  | .syncScl => Sys2Proof.Machine.execSyncScl s
  | .syncSda => Sys2Proof.Machine.execSyncSda s
  | .sampCount => Sys2Proof.Machine.execSampCount s
  | .sampLatch => Sys2Proof.Machine.execSampLatch s
  | .edgePrevScl => Sys2Proof.Machine.execEdgePrevScl s
  | .edgePrevSda => Sys2Proof.Machine.execEdgePrevSda s
  | .edgeSclRising => Sys2Proof.Machine.execEdgeSclRising s
  | .edgeSdaRising => Sys2Proof.Machine.execEdgeSdaRising s
  | .edgeSdaFalling => Sys2Proof.Machine.execEdgeSdaFalling s
  | .edgeStart => Sys2Proof.Machine.execEdgeStart s
  -- bit and byte engine (41_byte_engine.md)
  | .bitCount => Sys2Proof.Machine.execBitCount s
  | .bitShift => Sys2Proof.Machine.execBitShift s
  | .dirLatch => Sys2Proof.Machine.execDirLatch s
  | .offLoad => Sys2Proof.Machine.execOffLoad s
  | .offInc => Sys2Proof.Machine.execOffInc s
  | .drvBit => Sys2Proof.Machine.execDrvBit s
  | .drvEn => Sys2Proof.Machine.execDrvEn s
  | .drvSdaO => Sys2Proof.Machine.execDrvSdaO s
  | .drvSdaOe => Sys2Proof.Machine.execDrvSdaOe s
  -- protocol machine, overrides and rows (42_edid_fsm.md part 1)
  | .ovrHpd => Sys2Proof.Machine.execOvrHpd s
  | .ovrStart => Sys2Proof.Machine.execOvrStart s
  | .stWaitStart => Sys2Proof.Machine.execStWaitStart s
  | .stRcvAddress => Sys2Proof.Machine.execStRcvAddress s
  | .stAckAddress0 => Sys2Proof.Machine.execStAckAddress0 s
  | .stAckAddress1 => Sys2Proof.Machine.execStAckAddress1 s
  | .stAckAddress2 => Sys2Proof.Machine.execStAckAddress2 s
  | .stRcvOffset => Sys2Proof.Machine.execStRcvOffset s
  | .stAckOffset0 => Sys2Proof.Machine.execStAckOffset0 s
  | .stAckOffset1 => Sys2Proof.Machine.execStAckOffset1 s
  | .stAckOffset2 => Sys2Proof.Machine.execStAckOffset2 s
  | .stRead => Sys2Proof.Machine.execStRead s
  | .stAckRead => Sys2Proof.Machine.execStAckRead s
  -- bus-level operations (42_edid_fsm.md part 2)
  | .busStart repeated => Sys2Proof.Machine.execBusStart repeated s
  | .busAddrW => Sys2Proof.Machine.execBusAddrW s
  | .busAddrR => Sys2Proof.Machine.execBusAddrR s
  | .busAddrMiss addr rw => Sys2Proof.Machine.execBusAddrMiss addr rw s
  | .busOffset ignored off => Sys2Proof.Machine.execBusOffset ignored off s
  | .busRdbyte => Sys2Proof.Machine.execBusRdbyte s
  | .busMack => Sys2Proof.Machine.execBusMack s
  | .busMnack => Sys2Proof.Machine.execBusMnack s
  | .busStop => Sys2Proof.Machine.execBusStop s
  -- hot-plug, event and register accesses (43_hpd_event_csr.md)
  | .hpdSync => Sys2Proof.Machine.execHpdSync s
  | .csrRdHpdNotif => Sys2Proof.Machine.execCsrRdHpdNotif s
  | .csrWrHpdEn data => Sys2Proof.Machine.execCsrWrHpdEn data s
  | .csrRdHpdEn => Sys2Proof.Machine.execCsrRdHpdEn s
  | .hpdPin => Sys2Proof.Machine.execHpdPin s
  | .evLine => Sys2Proof.Machine.execEvLine s
  | .evEdge => Sys2Proof.Machine.execEvEdge s
  | .evPrev => Sys2Proof.Machine.execEvPrev s
  | .evPending => Sys2Proof.Machine.execEvPending s
  | .evCapture => Sys2Proof.Machine.execEvCapture s
  | .csrRdEvStatus => Sys2Proof.Machine.execCsrRdEvStatus s
  | .evIrq => Sys2Proof.Machine.execEvIrq s
  | .csrRdEvPending => Sys2Proof.Machine.execCsrRdEvPending s
  | .csrRdEvCaptured => Sys2Proof.Machine.execCsrRdEvCaptured s
  | .dbgTaps => Sys2Proof.Machine.execDbgTaps s
  | .csrClrEv => Sys2Proof.Machine.execCsrClrEv s
  -- CRC checker (44_crc_checker.md)
  | .crcFull => Sys2Proof.Machine.execCrcFull s
  | .crcSrcStb => Sys2Proof.Machine.execCrcSrcStb s
  | .crcFifoOut => Sys2Proof.Machine.execCrcFifoOut s
  | .crcFifoIn => Sys2Proof.Machine.execCrcFifoIn s
  | .crcSinkAck => Sys2Proof.Machine.execCrcSinkAck s
  | .crcSrcPayload => Sys2Proof.Machine.execCrcSrcPayload s
  | .crcSrcEop => Sys2Proof.Machine.execCrcSrcEop s
  | .crcBufUpdate => Sys2Proof.Machine.execCrcBufUpdate s
  | .crcEngineNext => Sys2Proof.Machine.execCrcEngineNext s
  | .crcEngineAcc => Sys2Proof.Machine.execCrcEngineAcc s
  | .crcSrcError => Sys2Proof.Machine.execCrcSrcError s
  | .crcBusy => Sys2Proof.Machine.execCrcBusy s
  | .cstReset => Sys2Proof.Machine.execCstReset s
  | .cstIdle => Sys2Proof.Machine.execCstIdle s
  | .cstCopy => Sys2Proof.Machine.execCstCopy s

end Sys2Proof.Machine
end

