-- ==== Sys2Proof/Machine/Step.lean ====
section
/-! DEFINITION. Machine/Step.lean: one step. Where the script holds an operation, the step performs it; where it holds none,
the step is one tick (notes/assumptions/2.md, 4.md). -/

namespace Sys2Proof.Machine

/-- One step. -/
def step (s : State) : Host.Outcome State Fault Refusal :=
  match fetchWord s with
  | none => .next (tick s)
  | some (w, rest) =>
    match decode w with
    | .ok i => exec i rest
    | .error why => .refused (.notAnOperation why)

/-- The operation whose bits are `w` is the whole script, so that the next step performs exactly it. -/
def State.withFetchWord (s : State) (nbits w : Nat) : State := loadWord s (tableWord nbits w)

end Sys2Proof.Machine
end

