-- ==== Sys2Proof/Safety.lean ====
section
/-! DEFINITION. Safety.lean: the terms statements use: what counts as a safe step, the invariants of the reachable states,
what the tick performs, what the streams carry, and what the bus shows. -/

namespace Sys2Proof.Safety

open Sys2Proof.Machine

/-- A safe step: it answers a next state. -/
def SafeStep (s : State) : Prop := ∃ t, step s = .next t

/-! ## Invariants -/

/-- 10_state.md R59: `counter <= 8`, `level <= RATIO`; the buffer holds units of `DW` bits (R47); the memory is in canonical
form. -/
def RegistersInRange (s : State) : Prop :=
  s.cur.counter.toNat ≤ 8 ∧ s.cur.buf.length ≤ s.params.dw.ratio ∧
    (∀ e ∈ s.cur.buf, unitOf s.params.dw e.data = e.data) ∧ Memory.wf s.mem = true

/-- 40_sync_edge.md R121: outside the tick after a carry the samples equal their previous-tick copies. -/
def SamplesSettled (s : State) : Prop :=
  s.cur.sampCount ≠ 0#6 → s.cur.sclR = s.cur.sclI ∧ s.cur.sdaR = s.cur.sdaI

/-- 41_byte_engine.md R132: where the bit counter stands in each state, and what of the clock the state has seen. -/
def Framed (s : State) : Prop :=
  match s.cur.state with
  | .waitStart => True
  | .rcvAddress => s.cur.counter = 8#4 → s.cur.sclI = true ∧ s.cur.sclR = true ∧ s.cur.sampCount = 1#6
  | .rcvOffset => s.cur.counter = 8#4 → s.cur.sclI = true ∧ s.cur.sclR = true ∧ s.cur.sampCount = 1#6
  | .ackAddress0 => s.cur.counter = 8#4 ∧ (s.cur.sclI = true → s.cur.sclR = true)
  | .ackOffset0 => s.cur.counter = 8#4 ∧ (s.cur.sclI = true → s.cur.sclR = true)
  | .ackAddress1 => s.cur.counter = 8#4 ∧ s.cur.sclR = false
  | .ackOffset1 => s.cur.counter = 8#4 ∧ s.cur.sclR = false
  | .ackAddress2 => s.cur.counter = 0#4 ∧ (s.cur.sclI = true → s.cur.sclR = true)
  | .ackOffset2 => s.cur.counter = 0#4 ∧ (s.cur.sclI = true → s.cur.sclR = true)
  | .read => s.cur.counter = 8#4 → s.cur.sclI = true → s.cur.sclR = true
  | .ackRead => s.cur.counter = 8#4

/-- Framing, with the counter in its range and the samples settled. -/
def FramingKept (s : State) : Prop := s.cur.counter.toNat ≤ 8 ∧ SamplesSettled s ∧ Framed s

/-- 70_reset_and_hazards.md R294: the engine waits for a START and pulls the data line low, and its samples show the line
low. -/
def StuckLow (s : State) : Prop :=
  s.cur.state = .waitStart ∧ s.cur.dataDrv = true ∧ s.cur.dataBit = false ∧
    s.cur.sdaS1 = false ∧ s.cur.sdaS2 = false ∧ s.cur.sdaI = false ∧ s.cur.sdaR = false

/-! ## The operations of a tick -/

/-- The operations performed in every tick, in the table's order: all rows but the bus-level ones, which are derived, and
the register accesses, which a party outside issues. -/
def tickOperations : List Instr :=
  [.syncScl, .syncSda, .sampCount, .sampLatch, .edgePrevScl, .edgePrevSda, .edgeSclRising, .edgeSdaRising, .edgeSdaFalling,
   .edgeStart, .bitCount, .bitShift, .dirLatch, .offLoad, .offInc, .drvBit, .drvEn, .drvSdaO, .drvSdaOe, .ovrHpd, .ovrStart,
   .stWaitStart, .stRcvAddress, .stAckAddress0, .stAckAddress1, .stAckAddress2, .stRcvOffset, .stAckOffset0, .stAckOffset1,
   .stAckOffset2, .stRead, .stAckRead, .hpdSync, .hpdPin, .evLine, .evEdge, .evPrev, .evPending, .evCapture, .evIrq, .dbgTaps,
   .crcFull, .crcSrcStb, .crcFifoOut, .crcFifoIn, .crcSinkAck, .crcSrcPayload, .crcSrcEop, .crcBufUpdate, .crcEngineNext,
   .crcEngineAcc, .crcSrcError, .crcBusy, .cstReset, .cstIdle, .cstCopy]

/-- Perform operations one after the other, as long as each answers a next state. -/
def performAll : List Instr → State → Option State
  | [], s => some s
  | i :: is, s =>
    match exec i s with
    | .next t => performAll is t
    | .fault _ => none
    | .refused _ => none

/-! ## The checker's streams -/

/-- A unit with its marks. -/
structure StreamUnit where
  data : DataUnit
  sop : Bool
  eop : Bool
deriving DecidableEq, Repr

/-- A beat of the output stream. -/
structure OutBeat where
  data : DataUnit
  sop : Bool
  eop : Bool
  error : Bool
deriving DecidableEq, Repr

/-- The unit that moves into the checker in the tick that begins at `s`, if one does. -/
def beatIn (s : State) : List StreamUnit :=
  if s.now.sinkStb && (tick s).wires.sinkAck then
    [{ data := unitOf s.params.dw s.now.sinkData, sop := s.now.sinkSop, eop := s.now.sinkEop }]
  else []

/-- The unit that moves out of the checker in the tick that begins at `s`, if one does. -/
def beatOut (s : State) : List OutBeat :=
  let w := (tick s).wires
  if w.sourceStb && s.now.sourceAck then
    [{ data := w.sourceData, sop := w.sourceSop, eop := w.sourceEop, error := w.sourceError }]
  else []

/-- The units that move in during `k` ticks. -/
def acceptedOver : Nat → State → List StreamUnit
  | 0, _ => []
  | k + 1, s => beatIn s ++ acceptedOver k (tick s)

/-- The beats that move out during `k` ticks. -/
def emittedOver : Nat → State → List OutBeat
  | 0, _ => []
  | k + 1, s => beatOut s ++ emittedOver k (tick s)

/-- The units of a frame after its first, the last one marked end. -/
def frameTail : List DataUnit → List StreamUnit
  | [] => []
  | [u] => [{ data := u, sop := false, eop := true }]
  | u :: us => { data := u, sop := false, eop := false } :: frameTail us

/-- A frame as the producer sends it (30_encoding.md R100): the first unit marked start, the last marked end. -/
def frame : List DataUnit → List StreamUnit
  | [] => []
  | [u] => [{ data := u, sop := true, eop := true }]
  | u :: us => { data := u, sop := true, eop := false } :: frameTail us

/-- The contract of the CRC engine's parameters (44_crc_checker.md R235) for units of one width: every payload has exactly
one check sequence, and one changed payload bit is an error. -/
def CrcContract (w : DataWidth) (init : Acc) (update : Acc → DataUnit → Acc) (error : Acc → Bool) : Prop :=
  (∀ p : List DataUnit, (∀ u ∈ p, unitOf w u = u) →
    ∃ f : List DataUnit, (f.length = w.ratio ∧ (∀ u ∈ f, unitOf w u = u) ∧ error ((p ++ f).foldl update init) = false) ∧
      ∀ g : List DataUnit, g.length = w.ratio → (∀ u ∈ g, unitOf w u = u) → error ((p ++ g).foldl update init) = false →
        g = f) ∧
  (∀ (before after f : List DataUnit) (u : DataUnit) (bit : Nat), bit < w.bits → f.length = w.ratio →
    (∀ v ∈ before ++ u :: after ++ f, unitOf w v = v) →
    error ((before ++ u :: after ++ f).foldl update init) = false →
    error ((before ++ (u ^^^ BitVec.twoPow 32 bit) :: after ++ f).foldl update init) = true)

/-- What 44_crc_checker.md R235 asks of the engine's three parameters: "They must satisfy" the contract. The external engine is
held to it by this premise (log 8); the reference engine meets it, which is a statement of its own. -/
def EngineMeetsContract (s : State) : Prop :=
  s.params.engine = .external → CrcContract s.params.dw (crcInit s) (crcUpdate s) (crcError s)

/-- The units are the check sequence of the payload (R235): `RATIO` of them, and no error over the whole frame. -/
def IsCheckSequence (s : State) (payload check : List DataUnit) : Prop :=
  check.length = s.params.dw.ratio ∧ crcError s ((payload ++ check).foldl (crcUpdate s) (crcInit s)) = false

/-- The check sequence of the reference engine (R236): the complement of the payload's fold, least significant unit first. -/
def referenceCheck (w : DataWidth) (acc : Acc) : List DataUnit :=
  (List.range w.ratio).map fun k => unitOf w ((~~~acc) >>> (w.bits * k))

/-! ## The bus -/

/-- The clock line has been at a level long enough for every stage and sample to show it. -/
def ClockAt (level : Bool) (s : State) : Prop :=
  s.cur.sclS1 = level ∧ s.cur.sclS2 = level ∧ s.cur.sclI = level ∧ s.cur.sclR = level

/-- The data line has been at a level long enough for every stage and sample to show it. -/
def DataAt (level : Bool) (s : State) : Prop :=
  s.cur.sdaS1 = level ∧ s.cur.sdaS2 = level ∧ s.cur.sdaI = level ∧ s.cur.sdaR = level

/-- The clock line is low, and every stage and sample shows it. -/
def ClockLow (s : State) : Prop := ClockAt false s

/-- Both lines are high, and every stage and sample shows it: an idle bus. -/
def BusIdle (s : State) : Prop := ClockAt true s ∧ DataAt true s

/-- The drive latch does not pull the data line (41_byte_engine.md R140): it is off, or it presents a 1. -/
def NotPulling (s : State) : Prop := s.cur.dataDrv = true → s.cur.dataBit = true

/-- The event line shows no edge (43_hpd_event_csr.md R199). -/
def NoEdge (s : State) : Prop := s.cur.evLineR = (s.cur.state != .waitStart)

/-- The engine is enabled and no input of the ticks to come is fixed, so that software leaves it enabled (42_edid_fsm.md
part 2: "`hpd_en` = 1 throughout"). -/
def Enabled (s : State) : Prop := s.cur.hpdEn = true ∧ s.pending = []

/-- What a bus operation of `n` ticks leaves: the memory, the parameters, the script, software's result, the sampler's phase
(`n` is a multiple of 64) and the engine's enable. -/
def BusKept (s t : State) (n : Nat) : Prop :=
  t.mem = s.mem ∧ t.params = s.params ∧ t.script = s.script ∧ t.swResult = s.swResult ∧ t.tick = s.tick + n ∧
    t.cur.sampCount = s.cur.sampCount ∧ Enabled t

/-- The drive latch and the bit it presents are unchanged. -/
def DriveKept (s t : State) : Prop := t.cur.dataDrv = s.cur.dataDrv ∧ t.cur.dataBit = s.cur.dataBit

/-- The engine presents a memory bit on the data line. -/
def Presents (bit : Bool) (t : State) : Prop := t.cur.dataDrv = true ∧ t.cur.dataBit = bit

/-- No event was raised. -/
def EventKept (s t : State) : Prop :=
  t.cur.evPending = s.cur.evPending ∧ t.cur.evCaptured = s.cur.evCaptured ∧ NoEdge t

/-- An event was raised, and the line's value at the edge captured (60_exceptions.md R264). -/
def EventRaised (line : Bool) (t : State) : Prop :=
  t.cur.evPending = true ∧ t.cur.evCaptured = line ∧ NoEdge t

/-- The event as the state shows it before and after (43_hpd_event_csr.md R210): raised exactly when `WAIT_START` was left or
entered. -/
def EventFollows (s t : State) : Prop :=
  ((s.cur.state = .waitStart ↔ t.cur.state = .waitStart) → EventKept s t) ∧
  (¬(s.cur.state = .waitStart ↔ t.cur.state = .waitStart) → EventRaised (decide (t.cur.state ≠ .waitStart)) t)

/-- The master has read nothing. -/
def MasterKept (s t : State) : Prop := t.masterByte = s.masterByte ∧ t.masterAck = s.masterAck

/-- Read bytes, each acknowledged by the master: the bytes the master got, and the state after them. -/
def readBytes : Nat → State → Option (List Byte × State)
  | 0, s => some ([], s)
  | n + 1, s =>
    match performAll [.busRdbyte] s with
    | none => none
    | some t =>
      match performAll [.busMack] t with
      | none => none
      | some u => (readBytes n u).map fun r => (t.masterByte :: r.1, r.2)

/-- The bytes of the memory from an address on, the address wrapping at 128 (20_memory.md R69). -/
def bytesFrom (s : State) (o : BitVec 7) (n : Nat) : List Byte :=
  (List.range n).map fun k => memRead s (o + BitVec.ofNat 7 k)

/-- Ticks under a sequence of master levels (clock, data), at the reference boundary (00_scope.md R16). -/
def busRun : List (Bool × Bool) → State → State
  | [], s => s
  | (masterScl, masterSda) :: rest, s => busRun rest (busTick masterScl masterSda s)

/-! ## The rules said again from the registers alone -/

/-- The START pulse, from the samples (40_sync_edge.md R119, R120). -/
def startSeen (r : Regs) : Bool := r.sclI && (!r.sdaI && r.sdaR)

/-- The clock-rising pulse, from the samples (40_sync_edge.md R117). -/
def clockRises (r : Regs) : Bool := r.sclI && !r.sclR

/-- The engine pulls the data line low (41_byte_engine.md R143, 42_edid_fsm.md R167). -/
def pulls (r : Regs) : Bool :=
  decide (r.state = .ackAddress1 ∨ r.state = .ackAddress2 ∨ r.state = .ackOffset1 ∨ r.state = .ackOffset2) ||
    (r.dataDrv && !r.dataBit)

/-- The registers a bus operation is about: the state, the counter and the rest of the datapath. -/
def engineRegs (r : Regs) : EdidState × BitVec 4 × Byte × Bool × BitVec 7 × Bool × Bool :=
  (r.state, r.counter, r.din, r.isRead, r.offset, r.dataDrv, r.dataBit)

/-- `READ` while the clock is low (42_edid_fsm.md R164): the next bit is presented, or the byte is over. -/
def readLow (s : State) (r : Regs) : Regs :=
  if r.counter = 8#4 then { r with state := .ackRead, dataDrv := false }
  else { r with state := .read, dataDrv := true, dataBit := (memRead s r.offset).getLsbD (7 - r.counter.toNat) }

/-- What a clock-low phase without START makes of the engine, from the rows that wait for the low clock (42_edid_fsm.md R155,
R157, R161, R163, R164). -/
def lowPhase (s : State) (r : Regs) : Regs :=
  match r.state with
  | .waitStart => r
  | .rcvAddress => r
  | .ackAddress0 => { r with state := .ackAddress1 }
  | .ackAddress1 => r
  | .ackAddress2 => if r.isRead = true then readLow s r else { r with state := .rcvOffset }
  | .rcvOffset => r
  | .ackOffset0 => { r with state := .ackOffset1 }
  | .ackOffset1 => r
  | .ackOffset2 => { r with state := .rcvAddress }
  | .read => readLow s r
  | .ackRead => r

/-- The bit counter and the shift register after a rising clock edge with `bit` on the data line (41_byte_engine.md R130,
R131). -/
def countBit (bit : Bool) (r : Regs) : Regs :=
  if r.counter = 8#4 then { r with counter := 0#4 }
  else { r with counter := r.counter + 1#4, din := BitVec.concat (r.din.extractLsb' 0 7) bit }

/-- What a rising clock edge with `bit` on the data line, and the high phase after it, make of the engine (42_edid_fsm.md R154,
R156, R160, R162, R165). -/
def highPhase (bit : Bool) (r : Regs) : Regs :=
  let n := countBit bit r
  match r.state with
  | .waitStart => n
  | .rcvAddress =>
    if n.counter = 8#4 then
      (if n.din.extractLsb' 1 7 = 0x50#7 then { n with state := .ackAddress0, isRead := bit } else { n with state := .waitStart })
    else n
  | .ackAddress0 => n
  | .ackAddress1 => { n with state := .ackAddress2 }
  | .ackAddress2 => n
  | .rcvOffset =>
    if n.counter = 8#4 then { n with state := .ackOffset0, offset := n.din.extractLsb' 0 7 } else n
  | .ackOffset0 => n
  | .ackOffset1 => { n with state := .ackOffset2 }
  | .ackOffset2 => n
  | .read => n
  | .ackRead => { n with state := if bit = true then .waitStart else .read, offset := r.offset + 1#7 }

/-- A row's proposal under the overrides (42_edid_fsm.md R150). -/
def overridden (r : Regs) (row : EdidState) : EdidState :=
  if r.hpdEn = false then .waitStart else if startSeen r = true then .rcvAddress else row

/-- The state after a row has been performed: `n` the primed registers its strobes command, the proposal under the overrides,
the strobes as wires, the acknowledge request. -/
def afterRow (s : State) (n : Regs) (row : Row) (zero : Bool) : State :=
  { s with
    nxt := { n with state := overridden s.cur row.next }
    wires := { s.wires with
      addrMatch := s.cur.din.extractLsb' 1 7 == 0x50#7
      updateIsRead := row.updateIsRead
      ocLoad := row.ocLoad
      ocInc := row.ocInc
      dataDrvEn := row.dataDrvEn
      dataDrvStop := row.dataDrvStop
      zeroDrv := zero
      nextState := overridden s.cur row.next } }

/-- The state after a row of the checker: the strobes as wires. -/
def afterCrcRow (s : State) (n : Regs) (reset ce : Bool) : State :=
  { s with nxt := n, wires := { s.wires with crcReset := reset, fifoReset := reset, crcCe := ce } }

/-! ## The two engines apart -/

/-- The registers of the EDID engine, the checker's put aside. -/
def edidRegs (r : Regs) : Regs := { r with cstate := .reset, crcAcc := 0#32, buf := [] }

/-- The registers of the checker. -/
def crcRegs (r : Regs) : CrcState × Acc × List Entry := (r.cstate, r.crcAcc, r.buf)

/-- Two input records agree on the EDID engine's inputs (10_state.md R40). -/
def sameEdidInputs (i j : Inputs) : Prop :=
  i.sclPin = j.sclPin ∧ i.sdaPin = j.sdaPin ∧ i.hpdPin = j.hpdPin ∧ i.hpdEnWe = j.hpdEnWe ∧
    i.hpdEnWdata = j.hpdEnWdata ∧ i.evClear = j.evClear

/-- Two input records agree on the checker's inputs (10_state.md R43). -/
def sameCrcInputs (i j : Inputs) : Prop :=
  i.sinkStb = j.sinkStb ∧ i.sinkSop = j.sinkSop ∧ i.sinkEop = j.sinkEop ∧ i.sinkData = j.sinkData ∧
    i.sourceAck = j.sourceAck

/-- The registers of the synchronizer, the sampler and the edge detector (40_sync_edge.md). -/
def syncRegs (r : Regs) : Bool × Bool × Bool × Bool × BitVec 6 × Bool × Bool × Bool × Bool :=
  (r.sclS1, r.sclS2, r.sdaS1, r.sdaS2, r.sampCount, r.sclI, r.sdaI, r.sclR, r.sdaR)

end Sys2Proof.Safety
end

