-- ==== Sys2Proof/Certificates/Slice0/Obligations.lean ====
section
/-! DEFINITION. Certificates/Slice0/Obligations.lean: the statements for the provers. Each docstring names the rules of spec/ the
statement says; "log <n>" is notes/assumptions/<n>.md. -/

section Statements

open Sys2Proof Sys2Proof.Machine Sys2Proof.Safety

/-! ## Encoding -/

/-- 30_encoding.md R89 to R93, R108 under the numbering of log 1 (the model's choice): no operand of a well-formed operation is
lost between its word and the decoder. -/
def Obligations.DecodeInvertsEncode : Prop :=
  ∀ i : Instr, i.wellFormed = true → decode (encode i) = .ok i

/-- 42_edid_fsm.md R173: whatever the word, an operation the decoder answers is well formed: an address that misses is never the
engine's own. -/
def Obligations.DecodedIsWellFormed : Prop :=
  ∀ (w : OpWord) (i : Instr), decode w = .ok i → i.wellFormed = true

/-- Words written out from the table's patterns (numbering: log 1): `A0 a`, `A1 a`, `A3 n`, `85 a`, `- 1 1 0`, `- 1 0 1`, state
`READ`, a write of `HPD_EN`. -/
def Obligations.TableWordsDecode : Prop :=
  decode 0b0000_0000_0000_0000_0000000_0_1010_0000#32 = .ok .busAddrW ∧
  decode 0b0000_0000_0000_0000_0000000_0_1010_0001#32 = .ok .busAddrR ∧
  decode 0b0000_0000_0000_0000_0000000_1_1010_0011#32 = .ok (.busAddrMiss 0x51#7 true) ∧
  decode 0b0000_0000_0001_0000_0000000_0_1000_0101#32 = .ok (.busOffset true 5#7) ∧
  decode 0b0000_0000_0001_0001_0000000_0_0111_0110#32 = .ok (.busStart false) ∧
  decode 0b0000_0000_0001_0001_0000000_0_0111_0101#32 = .ok .busStop ∧
  decode 0b0000_0000_0000_0010_0000000_0_0000_1001#32 = .ok .stRead ∧
  decode 0b0000_0000_0101_0100_0000000_0_0000_0001#32 = .ok (.csrWrHpdEn 1#8)

/-- An operation loaded by its encoding is the operation the next step performs. -/
def Obligations.LoadedOperationRuns : Prop :=
  ∀ (i : Instr) (s : State), i.wellFormed = true →
    step (s.withFetchWord 32 (encode i).toNat) = exec i { s with script := [] }

/-! ## The step -/

/-- A step performs the operation the script's next word encodes, with that word taken off the script (log 2, log 4). -/
def Obligations.StepRunsDecodedOperation : Prop :=
  ∀ (s : State) (w : OpWord) (rest : List OpWord) (i : Instr), s.script = w :: rest → decode w = .ok i →
    step s = exec i { s with script := rest }

/-- 60_exceptions.md R255: no step faults. That a step with an empty script is one tick is the model's choice (log 2, log 4), and
so is that a word of the script that encodes no operation is refused, and nothing else is (log 21). -/
def Obligations.StepOutcomes : Prop :=
  (∀ s : State, s.script = [] → step s = .next (tick s)) ∧
  (∀ (s : State) (f : Fault), step s ≠ .fault f) ∧
  (∀ (s : State) (r : Refusal), step s = .refused r ↔
    ∃ w rest why, s.script = w :: rest ∧ decode w = .error why ∧ r = .notAnOperation why)

/-- 60_exceptions.md R255: "the result of a step is always a next state", for every operation in every state. -/
def Obligations.EveryOperationCompletes : Prop :=
  ∀ (i : Instr) (s : State), ∃ t : State, exec i s = .next t

/-! ## Reset -/

/-- The reset state. The register values are the table of 10_state.md R53, which the spec marks as its own choice (log 11); the
memory reads as the image (R34). The sampled lines, the event and the driver are then as 70_reset_and_hazards.md R286 says. -/
def Obligations.ResetState : Prop :=
  State.reset.cur =
    { sclS1 := false, sclS2 := false, sdaS1 := false, sdaS2 := false, sampCount := 0#6, sclI := false, sdaI := false,
      sclR := false, sdaR := false, din := 0x00#8, counter := 0#4, isRead := false, offset := 0#7, dataDrv := false,
      dataBit := false, state := .waitStart, hpdS1 := false, hpdS2 := false, hpdEn := false, evLineR := false,
      evPending := false, evCaptured := false, cstate := .reset, crcAcc := 0x00000000#32, buf := [] } ∧
  (∀ a : BitVec 7, memRead State.reset a = Config.edidImage a) ∧
  (tick State.reset).wires.sdaOe = false ∧ (tick State.reset).wires.evEdge = false ∧
  (tick State.reset).wires.irq = false ∧ (tick State.reset).wires.busy = true

/-- 70_reset_and_hazards.md R289, 00_scope.md R10: a configuration is taken exactly when the unit width divides 32 and the image
is 128 bytes; the machine then starts in the reset state, its memory reads as the image and its parameters are those given. The
loader is the model's (log 28), and so is the canonical form of the memory list over the free image (log 7). -/
def Obligations.ConfiguredImageIsRead : Prop :=
  ∀ (dw : Nat) (image : List Nat) (p q : Bool) (e : CrcEngine),
    ((∃ s, configure dw image p q e = .ok s) ↔ dw ∣ 32 ∧ image.length = 128 ∧ ∀ b ∈ image, b < 256) ∧
    ∀ s, configure dw image p q e = .ok s →
      s.cur = State.reset.cur ∧ s.params.dw.bits = dw ∧ Memory.wf s.mem = true ∧
        (∀ a : BitVec 7, memRead s a = BitVec.ofNat 8 (image.getD a.toNat 0)) ∧
        s.params.hasHpdPin = p ∧ s.params.hasHpdEnPin = q ∧ s.params.engine = e

/-! ## Synchronizer, sampler, edge detector -/

/-- 40_sync_edge.md R110, R111, R115, R116: the guards shift, the previous-tick copies follow, each operation assigns its own
registers and nothing else, and the tick commits them. -/
def Obligations.GuardsAndPreviousSamples : Prop :=
  ∀ s : State,
    exec .syncScl s = .next { s with nxt := { s.nxt with sclS1 := s.now.sclPin, sclS2 := s.cur.sclS1 } } ∧
    exec .syncSda s = .next { s with nxt := { s.nxt with sdaS1 := s.now.sdaPin, sdaS2 := s.cur.sdaS1 } } ∧
    exec .edgePrevScl s = .next { s with nxt := { s.nxt with sclR := s.cur.sclI } } ∧
    exec .edgePrevSda s = .next { s with nxt := { s.nxt with sdaR := s.cur.sdaI } } ∧
    (tick s).cur.sclS1 = s.now.sclPin ∧ (tick s).cur.sclS2 = s.cur.sclS1 ∧
    (tick s).cur.sdaS1 = s.now.sdaPin ∧ (tick s).cur.sdaS2 = s.cur.sdaS1 ∧
    (tick s).cur.sclR = s.cur.sclI ∧ (tick s).cur.sdaR = s.cur.sdaI

/-- 40_sync_edge.md R112, R113, R114: the counter counts modulo 64; in the tick of its carry, and in no other, both samples take
the guards' values. -/
def Obligations.SamplerCountsAndLatches : Prop :=
  ∀ s : State,
    exec .sampCount s = .next { s with
      nxt := { s.nxt with sampCount := BitVec.ofNat 6 ((s.cur.sampCount.toNat + 1) % 64) }
      wires := { s.wires with sampCarry := s.cur.sampCount == 63#6 } } ∧
    exec .sampLatch s = .next (if s.cur.sampCount = 63#6 then
      { s with nxt := { s.nxt with sclI := s.cur.sclS2, sdaI := s.cur.sdaS2 } } else s) ∧
    (tick s).cur.sampCount.toNat = (s.cur.sampCount.toNat + 1) % 64 ∧
    (s.cur.sampCount = 63#6 → (tick s).cur.sclI = s.cur.sclS2 ∧ (tick s).cur.sdaI = s.cur.sdaS2) ∧
    (s.cur.sampCount ≠ 63#6 → (tick s).cur.sclI = s.cur.sclI ∧ (tick s).cur.sdaI = s.cur.sdaI)

/-- 40_sync_edge.md R117 to R120: the four pulses, as functions of the two samples and their previous-tick copies. -/
def Obligations.EdgePulses : Prop :=
  ∀ s : State,
    exec .edgeSclRising s = .next { s with wires := { s.wires with sclRising := s.cur.sclI && !s.cur.sclR } } ∧
    exec .edgeSdaRising s = .next { s with wires := { s.wires with sdaRising := s.cur.sdaI && !s.cur.sdaR } } ∧
    exec .edgeSdaFalling s = .next { s with wires := { s.wires with sdaFalling := !s.cur.sdaI && s.cur.sdaR } } ∧
    exec .edgeStart s = .next { s with wires := { s.wires with start := s.cur.sclI && (!s.cur.sdaI && s.cur.sdaR) } } ∧
    (tick s).wires.sclRising = (s.cur.sclI && !s.cur.sclR) ∧ (tick s).wires.sdaRising = (s.cur.sdaI && !s.cur.sdaR) ∧
    (tick s).wires.sdaFalling = (!s.cur.sdaI && s.cur.sdaR) ∧
    (tick s).wires.start = (s.cur.sclI && (!s.cur.sdaI && s.cur.sdaR))

/-- 40_sync_edge.md R122, R123: the pins of the tick two before a carry are the samples from the third tick after to the 66th,
whatever the pins do in between: decimation, not voting. -/
def Obligations.SampleIsDecimatedPin : Prop :=
  ∀ s : State, s.cur.sampCount = 61#6 → ∀ k : Nat, 3 ≤ k → k ≤ 66 →
    (ticks k s).cur.sclI = s.now.sclPin ∧ (ticks k s).cur.sdaI = s.now.sdaPin

/-- 40_sync_edge.md R124: two machines that agree on the registers of the synchronizer, the sampler and the edge detector, and
see the same pins for `k` ticks, agree on those registers after them, whatever else they hold. -/
def Obligations.SynchronizerIndependent : Prop :=
  ∀ (k : Nat) (s u : State), syncRegs s.cur = syncRegs u.cur →
    (∀ j, j < k → (ticks j s).now.sclPin = (ticks j u).now.sclPin ∧ (ticks j s).now.sdaPin = (ticks j u).now.sdaPin) →
    syncRegs (ticks k s).cur = syncRegs (ticks k u).cur

/-! ## Byte engine -/

/-- 41_byte_engine.md R130, R131: the bit counter and the shift register. START wins over a rising edge; at 8 the rising edge takes
the counter to 0 and shifts nothing. -/
def Obligations.BitCounterAndShift : Prop :=
  ∀ s : State,
    exec .bitCount s = .next { s with nxt := { s.nxt with
      counter :=
        if startSeen s.cur = true then 0#4
        else if clockRises s.cur = true then (if s.cur.counter = 8#4 then 0#4 else s.cur.counter + 1#4)
        else s.nxt.counter } } ∧
    exec .bitShift s = .next { s with nxt := { s.nxt with
      din :=
        if startSeen s.cur = false ∧ clockRises s.cur = true ∧ s.cur.counter ≠ 8#4 then
          BitVec.concat (s.cur.din.extractLsb' 0 7) s.cur.sdaI
        else s.nxt.din } } ∧
    (tick s).cur.counter =
      (if startSeen s.cur = true then 0#4
        else if clockRises s.cur = true then (if s.cur.counter = 8#4 then 0#4 else s.cur.counter + 1#4)
        else s.cur.counter) ∧
    (tick s).cur.din =
      (if startSeen s.cur = false ∧ clockRises s.cur = true ∧ s.cur.counter ≠ 8#4 then
          BitVec.concat (s.cur.din.extractLsb' 0 7) s.cur.sdaI
        else s.cur.din)

/-- 41_byte_engine.md R133, R135, R136 with the strobes of 42_edid_fsm.md R154, R160, R165: the direction is latched in
`RCV_ADDRESS`, the offset loaded in `RCV_OFFSET` (bit 7 dropped) and incremented modulo 128 in `ACK_READ`; in every other tick both
keep their values. -/
def Obligations.DirectionAndOffset : Prop :=
  ∀ s : State,
    exec .dirLatch s = .next { s with nxt := { s.nxt with
      isRead :=
        if s.cur.state = .rcvAddress ∧ s.cur.counter = 8#4 ∧ s.cur.din.extractLsb' 1 7 = 0x50#7 then s.cur.din.getLsbD 0
        else s.nxt.isRead } } ∧
    exec .offLoad s = .next { s with nxt := { s.nxt with
      offset := if s.cur.state = .rcvOffset ∧ s.cur.counter = 8#4 then s.cur.din.extractLsb' 0 7 else s.nxt.offset } } ∧
    exec .offInc s = .next { s with nxt := { s.nxt with
      offset :=
        if s.cur.state = .ackRead ∧ clockRises s.cur = true then BitVec.ofNat 7 ((s.cur.offset.toNat + 1) % 128)
        else s.nxt.offset } } ∧
    (tick s).cur.isRead =
      (if s.cur.state = .rcvAddress ∧ s.cur.counter = 8#4 ∧ s.cur.din.extractLsb' 1 7 = 0x50#7 then s.cur.din.getLsbD 0
        else s.cur.isRead) ∧
    (tick s).cur.offset =
      (if s.cur.state = .rcvOffset ∧ s.cur.counter = 8#4 then s.cur.din.extractLsb' 0 7
        else if s.cur.state = .ackRead ∧ clockRises s.cur = true then BitVec.ofNat 7 ((s.cur.offset.toNat + 1) % 128)
        else s.cur.offset)

/-- 41_byte_engine.md R138, R139 with the strobes of 42_edid_fsm.md R164: in a clock-low tick of `READ` with fewer than eight bits
out, the bit `7 - counter` of the byte at the offset is latched and driving enabled; with eight bits out driving stops. Only
counters the bit counter reaches are spoken of (10_state.md R59; beyond them log 10). -/
def Obligations.BitPresented : Prop :=
  ∀ s : State, s.cur.counter.toNat ≤ 8 →
    exec .drvBit s = .next { s with
      nxt := { s.nxt with
        dataBit :=
          if s.cur.state = .read ∧ s.cur.sclI = false ∧ s.cur.counter ≠ 8#4 then
            (memRead s s.cur.offset).getLsbD (7 - s.cur.counter.toNat)
          else s.nxt.dataBit }
      wires := { s.wires with memByte := memRead s s.cur.offset } } ∧
    exec .drvEn s = .next { s with nxt := { s.nxt with
      dataDrv :=
        if s.cur.state = .read ∧ s.cur.sclI = false then decide (s.cur.counter ≠ 8#4) else s.nxt.dataDrv } } ∧
    (tick s).cur.dataBit =
      (if s.cur.state = .read ∧ s.cur.sclI = false ∧ s.cur.counter ≠ 8#4 then
          (memRead s s.cur.offset).getLsbD (7 - s.cur.counter.toNat)
        else s.cur.dataBit) ∧
    (tick s).cur.dataDrv =
      (if s.cur.state = .read ∧ s.cur.sclI = false then decide (s.cur.counter ≠ 8#4) else s.cur.dataDrv)

/-- 41_byte_engine.md R142, R143 and 42_edid_fsm.md R167: the driven value is 0; the line is pulled in the four acknowledge
states, and otherwise where the drive latch presents a 0. -/
def Obligations.DataLineDriver : Prop :=
  ∀ s : State,
    let zero := decide (s.cur.state = .ackAddress1 ∨ s.cur.state = .ackAddress2 ∨ s.cur.state = .ackOffset1 ∨
      s.cur.state = .ackOffset2)
    let oe := zero || (s.cur.dataDrv && !s.cur.dataBit)
    exec .drvSdaO s = .next { s with wires := { s.wires with sdaO := false } } ∧
    exec .drvSdaOe s = .next { s with wires := { s.wires with zeroDrv := zero, sdaOe := oe } } ∧
    (tick s).wires.sdaO = false ∧ (tick s).wires.zeroDrv = zero ∧ (tick s).wires.sdaOe = oe

/-- 41_byte_engine.md R132, 40_sync_edge.md R121: every step keeps the framing: where the bit counter stands in each state, and
that the samples differ from their previous-tick copies only in the tick after a carry. -/
def Obligations.FramingIsKept : Prop :=
  ∀ s t : State, FramingKept s → step s = .next t → FramingKept t

/-- 10_state.md R59: every step keeps `counter <= 8` and `level <= RATIO`. It also keeps two forms that are the model's choice: the
stored units have zeros above their width (log 22) and the memory list is canonical (log 7). -/
def Obligations.RegistersStayInRange : Prop :=
  ∀ s t : State, RegistersInRange s → step s = .next t → RegistersInRange t

/-- The invariants hold in the reset state (whose register values are the choice of log 11). -/
def Obligations.InvariantsAtReset : Prop :=
  FramingKept State.reset ∧ RegistersInRange State.reset

/-! ## Protocol machine -/

/-- 42_edid_fsm.md R151, R152: the overrides assign `state` and nothing else, and a disabled engine does not obey START. -/
def Obligations.OverridesSetState : Prop :=
  ∀ s : State,
    exec .ovrHpd s = .next { s with nxt := { s.nxt with
      state := if s.cur.hpdEn = false then .waitStart else s.nxt.state } } ∧
    exec .ovrStart s = .next { s with nxt := { s.nxt with
      state := if startSeen s.cur = true ∧ s.cur.hpdEn = true then .rcvAddress else s.nxt.state } }

/-- 42_edid_fsm.md R153, R154, R160: the rows of `WAIT_START`, `RCV_ADDRESS` and `RCV_OFFSET`. -/
def Obligations.ReceivingRows : Prop :=
  ∀ s : State,
    (s.cur.state = .waitStart → exec .stWaitStart s = .next (afterRow s s.nxt (quietRow .waitStart) false)) ∧
    (s.cur.state = .rcvAddress → s.cur.counter ≠ 8#4 →
      exec .stRcvAddress s = .next (afterRow s s.nxt (quietRow .rcvAddress) false)) ∧
    (s.cur.state = .rcvAddress → s.cur.counter = 8#4 → s.cur.din.extractLsb' 1 7 = 0x50#7 →
      exec .stRcvAddress s = .next (afterRow s { s.nxt with isRead := s.cur.din.getLsbD 0 }
        { quietRow .ackAddress0 with updateIsRead := true } false)) ∧
    (s.cur.state = .rcvAddress → s.cur.counter = 8#4 → s.cur.din.extractLsb' 1 7 ≠ 0x50#7 →
      exec .stRcvAddress s = .next (afterRow s s.nxt (quietRow .waitStart) false)) ∧
    (s.cur.state = .rcvOffset → s.cur.counter ≠ 8#4 →
      exec .stRcvOffset s = .next (afterRow s s.nxt (quietRow .rcvOffset) false)) ∧
    (s.cur.state = .rcvOffset → s.cur.counter = 8#4 →
      exec .stRcvOffset s = .next (afterRow s { s.nxt with offset := s.cur.din.extractLsb' 0 7 }
        { quietRow .ackOffset0 with ocLoad := true } false))

/-- 42_edid_fsm.md R155 to R157, R161 to R163: the two acknowledge chains follow the level of the clock sample, and ask for the
line in their second and third states. -/
def Obligations.AcknowledgeRows : Prop :=
  ∀ s : State,
    (s.cur.state = .ackAddress0 → exec .stAckAddress0 s =
      .next (afterRow s s.nxt (quietRow (if s.cur.sclI = false then .ackAddress1 else .ackAddress0)) false)) ∧
    (s.cur.state = .ackAddress1 → exec .stAckAddress1 s =
      .next (afterRow s s.nxt (quietRow (if s.cur.sclI = true then .ackAddress2 else .ackAddress1)) true)) ∧
    (s.cur.state = .ackAddress2 → exec .stAckAddress2 s =
      .next (afterRow s s.nxt (quietRow (if s.cur.sclI = false then
        (if s.cur.isRead = true then .read else .rcvOffset) else .ackAddress2)) true)) ∧
    (s.cur.state = .ackOffset0 → exec .stAckOffset0 s =
      .next (afterRow s s.nxt (quietRow (if s.cur.sclI = false then .ackOffset1 else .ackOffset0)) false)) ∧
    (s.cur.state = .ackOffset1 → exec .stAckOffset1 s =
      .next (afterRow s s.nxt (quietRow (if s.cur.sclI = true then .ackOffset2 else .ackOffset1)) true)) ∧
    (s.cur.state = .ackOffset2 → exec .stAckOffset2 s =
      .next (afterRow s s.nxt (quietRow (if s.cur.sclI = false then .rcvAddress else .ackOffset2)) true))

/-- 42_edid_fsm.md R164, R165: the rows of `READ` and `ACK_READ` with the writes their strobes command. Only counters the bit
counter reaches are spoken of (10_state.md R59; beyond them log 10). -/
def Obligations.ReadingRows : Prop :=
  ∀ s : State, s.cur.counter.toNat ≤ 8 →
    (s.cur.state = .read → s.cur.sclI = true →
      exec .stRead s = .next (afterRow s s.nxt (quietRow .read) false)) ∧
    (s.cur.state = .read → s.cur.sclI = false → s.cur.counter = 8#4 →
      exec .stRead s = .next (afterRow s { s.nxt with dataDrv := false }
        { quietRow .ackRead with dataDrvStop := true } false)) ∧
    (s.cur.state = .read → s.cur.sclI = false → s.cur.counter ≠ 8#4 →
      exec .stRead s = .next (afterRow s
        { s.nxt with dataDrv := true, dataBit := (memRead s s.cur.offset).getLsbD (7 - s.cur.counter.toNat) }
        { quietRow .read with dataDrvEn := true } false)) ∧
    (s.cur.state = .ackRead → clockRises s.cur = true →
      exec .stAckRead s = .next (afterRow s { s.nxt with offset := s.cur.offset + 1#7 }
        { quietRow (if s.cur.sdaI = true then .waitStart else .read) with ocInc := true } false)) ∧
    (s.cur.state = .ackRead → clockRises s.cur = false →
      exec .stAckRead s = .next (afterRow s s.nxt (quietRow .ackRead) false))

/-- 30_encoding.md R108: a row is selected by the value of its state register. That one which is not selected does nothing is
read from it by inference (log 17). -/
def Obligations.UnselectedRowsDoNothing : Prop :=
  ∀ s : State,
    (s.cur.state ≠ .waitStart → exec .stWaitStart s = .next s) ∧
    (s.cur.state ≠ .rcvAddress → exec .stRcvAddress s = .next s) ∧
    (s.cur.state ≠ .ackAddress0 → exec .stAckAddress0 s = .next s) ∧
    (s.cur.state ≠ .ackAddress1 → exec .stAckAddress1 s = .next s) ∧
    (s.cur.state ≠ .ackAddress2 → exec .stAckAddress2 s = .next s) ∧
    (s.cur.state ≠ .rcvOffset → exec .stRcvOffset s = .next s) ∧
    (s.cur.state ≠ .ackOffset0 → exec .stAckOffset0 s = .next s) ∧
    (s.cur.state ≠ .ackOffset1 → exec .stAckOffset1 s = .next s) ∧
    (s.cur.state ≠ .ackOffset2 → exec .stAckOffset2 s = .next s) ∧
    (s.cur.state ≠ .read → exec .stRead s = .next s) ∧
    (s.cur.state ≠ .ackRead → exec .stAckRead s = .next s) ∧
    (s.cur.cstate ≠ .reset → exec .cstReset s = .next s) ∧
    (s.cur.cstate ≠ .idle → exec .cstIdle s = .next s) ∧
    (s.cur.cstate ≠ .copy → exec .cstCopy s = .next s)

/-- 42_edid_fsm.md R150, R166, R168: the tick commits the table's next state under the overrides, and the overrides replace the next
state and nothing else. The disable: with the enable bit at any value, every register but `state` and the bit itself, and every
wire but the next state and the bit's outputs, are the same. START: `sda_r` decides it and feeds the two data-edge wires besides;
at any value of it every register but `state`, and but the `counter` and `din` of 41_byte_engine.md R130 and R131, and every wire
but the next state, START and the data edges, are the same. -/
def Obligations.StateCommit : Prop :=
  ∀ s : State,
    (tick s).cur.state = overridden s.cur
      (match s.cur.state with
        | .waitStart => .waitStart
        | .rcvAddress =>
          if s.cur.counter = 8#4 then (if s.cur.din.extractLsb' 1 7 = 0x50#7 then .ackAddress0 else .waitStart)
          else .rcvAddress
        | .ackAddress0 => if s.cur.sclI = false then .ackAddress1 else .ackAddress0
        | .ackAddress1 => if s.cur.sclI = true then .ackAddress2 else .ackAddress1
        | .ackAddress2 => if s.cur.sclI = false then (if s.cur.isRead = true then .read else .rcvOffset) else .ackAddress2
        | .rcvOffset => if s.cur.counter = 8#4 then .ackOffset0 else .rcvOffset
        | .ackOffset0 => if s.cur.sclI = false then .ackOffset1 else .ackOffset0
        | .ackOffset1 => if s.cur.sclI = true then .ackOffset2 else .ackOffset1
        | .ackOffset2 => if s.cur.sclI = false then .rcvAddress else .ackOffset2
        | .read => if s.cur.sclI = false ∧ s.cur.counter = 8#4 then .ackRead else .read
        | .ackRead => if clockRises s.cur = true then (if s.cur.sdaI = true then .waitStart else .read) else .ackRead) ∧
    (∀ enable : Bool,
      let t := tick { s with cur := { s.cur with hpdEn := enable } }
      { t.cur with state := (tick s).cur.state, hpdEn := (tick s).cur.hpdEn } = (tick s).cur ∧
      { t.wires with
          nextState := (tick s).wires.nextState
          hpdEnQ := (tick s).wires.hpdEnQ
          hpdEnPin := (tick s).wires.hpdEnPin } = (tick s).wires) ∧
    ∀ previousSda : Bool,
      let t := tick { s with cur := { s.cur with sdaR := previousSda } }
      { t.cur with state := (tick s).cur.state, counter := (tick s).cur.counter, din := (tick s).cur.din } = (tick s).cur ∧
      { t.wires with
          nextState := (tick s).wires.nextState
          start := (tick s).wires.start
          sdaRising := (tick s).wires.sdaRising
          sdaFalling := (tick s).wires.sdaFalling } = (tick s).wires

/-- 42_edid_fsm.md R151: while software does not write a 1, a disabled engine is in `WAIT_START` from the next tick on and never
asks for the line to acknowledge. -/
def Obligations.DisabledEngineWaits : Prop :=
  ∀ (k : Nat) (s : State), s.cur.hpdEn = false →
    (∀ j, j < k → (ticks j s).now.hpdEnWe = true → (ticks j s).now.hpdEnWdata = false) →
    ∀ j, 1 ≤ j → j ≤ k →
      (ticks j s).cur.state = .waitStart ∧ (ticks j s).cur.hpdEn = false ∧ (tick (ticks j s)).wires.zeroDrv = false

/-- 70_reset_and_hazards.md R294: an engine that pulls the data line in `WAIT_START` pulls it for ever, whatever the master does
with its lines and software with the enable bit; and a disable in `READ` leads there: in a clock-high tick that presents a 0, and in
a clock-low tick whose row writes a 0 (42_edid_fsm.md R166: the disable does not suppress the write). -/
def Obligations.StuckLowForever : Prop :=
  (∀ (levels : List (Bool × Bool)) (s : State), StuckLow s →
    StuckLow (busRun levels s) ∧ ∀ masterSda : Bool, sdaLine masterSda (busRun levels s) = false) ∧
  (∀ (masterScl masterSda : Bool) (s : State), s.cur.state = .read → s.cur.sclI = true → s.cur.dataDrv = true →
    s.cur.dataBit = false → DataAt false s → s.cur.hpdEn = false → StuckLow (busTick masterScl masterSda s)) ∧
  (∀ (masterScl masterSda : Bool) (s : State), s.cur.state = .read → s.cur.sclI = false → s.cur.counter.toNat < 8 →
    (memRead s s.cur.offset).getLsbD (7 - s.cur.counter.toNat) = false → DataAt false s → sdaLine masterSda s = false →
    s.cur.hpdEn = false → StuckLow (busTick masterScl masterSda s))

/-- 70_reset_and_hazards.md R303: between the acknowledge of an address byte and a first data bit the line is released for one
tick; the first bit is the most significant bit of the byte at the offset. -/
def Obligations.OneTickRelease : Prop :=
  ∀ s : State, s.cur.state = .ackAddress2 → s.cur.sclI = false → s.cur.isRead = true → s.cur.hpdEn = true →
    s.cur.counter = 0#4 → s.cur.dataDrv = false → s.cur.sampCount = 0#6 →
    (tick s).wires.sdaOe = true ∧ (tick s).cur.state = .read ∧ (tick (tick s)).wires.sdaOe = false ∧
      (tick (tick (tick s))).wires.sdaOe = !(memRead s s.cur.offset).getLsbD 7

/-! ## Hot-plug block, event, register accesses -/

/-- 43_hpd_event_csr.md R190 to R192: the two-stage filter, present only with the pin, the status read through it two ticks later,
and the constant 1 without it. That a read returns eight bits, the status at position 0 (10_state.md R52) and zeros above, is the
model's choice (log 13); that HPD.SYNC keeps the two registers without the pin is inferred (log 19). -/
def Obligations.HotPlugStatus : Prop :=
  ∀ s : State,
    let notif := if s.params.hasHpdPin = true then s.cur.hpdS2 else true
    exec .hpdSync s = .next { s with
      nxt := if s.params.hasHpdPin = true then { s.nxt with hpdS1 := s.now.hpdPin, hpdS2 := s.cur.hpdS1 } else s.nxt
      wires := { s.wires with hpdNotif := notif } } ∧
    exec .csrRdHpdNotif s = .next { s with
      wires := { s.wires with hpdNotif := notif }
      swResult := if notif = true then 0x01#8 else 0x00#8 } ∧
    (s.params.hasHpdPin = true → (tick (tick (tick s))).wires.hpdNotif = s.now.hpdPin) ∧
    (s.params.hasHpdPin = false → (tick s).wires.hpdNotif = true)

/-- 43_hpd_event_csr.md R193 to R195: a write of the enable bit is committed by the tick it stands in; a read in the same tick
returns the old value; the pin follows the register where it is wired. That the write stands in the present input record is
inferred (log 15); that both accesses carry eight bits, the bit at position 0 (10_state.md R52), is the model's choice (log 13),
and the pin's absence is `none` (log 19). -/
def Obligations.EnableBitAccess : Prop :=
  ∀ (s : State) (data : BitVec 8),
    let t : State := { s with
      pending := { s.now with hpdEnWe := true, hpdEnWdata := data.getLsbD 0 } :: s.pending.tail
      nxt := { s.nxt with hpdEn := data.getLsbD 0 } }
    exec (.csrWrHpdEn data) s = .next t ∧
    (tick t).cur.hpdEn = data.getLsbD 0 ∧ (tick t).wires.hpdEnQ = s.cur.hpdEn ∧
    (s.now.hpdEnWe = false → (tick s).cur.hpdEn = s.cur.hpdEn) ∧
    exec .csrRdHpdEn s = .next { s with
      wires := { s.wires with hpdEnQ := s.cur.hpdEn }
      swResult := if s.cur.hpdEn = true then 0x01#8 else 0x00#8 } ∧
    exec .hpdPin s = .next { s with
      wires := { s.wires with hpdEnPin := if s.params.hasHpdEnPin = true then some s.cur.hpdEn else none } }

/-- 43_hpd_event_csr.md R198 to R200: the event line, its edge in either direction, its previous-tick register. -/
def Obligations.EventLineAndEdge : Prop :=
  ∀ s : State,
    let line := decide (s.cur.state ≠ .waitStart)
    exec .evLine s = .next { s with wires := { s.wires with evLine := line, evStatusQ := line } } ∧
    exec .evEdge s = .next { s with wires := { s.wires with evEdge := line != s.cur.evLineR } } ∧
    exec .evPrev s = .next { s with nxt := { s.nxt with evLineR := line } } ∧
    (tick s).wires.evLine = line ∧ (tick s).wires.evEdge = (line != s.cur.evLineR) ∧ (tick s).cur.evLineR = line

/-- 43_hpd_event_csr.md R201, R202, R208 and 60_exceptions.md R264, R265: an edge sets the pending flag and captures the line's
value and does nothing else; the clear resets the flag unless an edge comes in the same tick, and restores nothing. That the clear
stands in the present input record is inferred (log 15). -/
def Obligations.EventFlagAndLatch : Prop :=
  ∀ s : State,
    let line := decide (s.cur.state ≠ .waitStart)
    let edge := line != s.cur.evLineR
    exec .evPending s = .next { s with
      nxt := { s.nxt with
        evPending := if edge = true then true else if s.now.evClear = true then false else s.nxt.evPending }
      wires := { s.wires with evPendingQ := s.cur.evPending } } ∧
    exec .evCapture s = .next { s with
      nxt := { s.nxt with evCaptured := if edge = true then line else s.nxt.evCaptured }
      wires := { s.wires with evCapturedQ := s.cur.evCaptured } } ∧
    exec .csrClrEv s = .next { s with
      pending := { s.now with evClear := true } :: s.pending.tail
      nxt := { s.nxt with evPending := edge } } ∧
    (∀ t, exec .csrClrEv s = .next t → (tick t).cur.evPending = edge) ∧
    (tick s).cur.evPending = (if edge = true then true else if s.now.evClear = true then false else s.cur.evPending) ∧
    (tick s).cur.evCaptured = (if edge = true then line else s.cur.evCaptured)

/-- 43_hpd_event_csr.md R203 to R207, R209: the reads, the interrupt request and the debug taps show the registers of the present
tick and change no register. That a read returns eight bits, the value at position 0 (10_state.md R52), is the model's choice
(log 13); the wire it drives is inferred (log 14). -/
def Obligations.EventOutputs : Prop :=
  ∀ s : State,
    let line := decide (s.cur.state ≠ .waitStart)
    exec .csrRdEvStatus s = .next { s with
      wires := { s.wires with evLine := line, evStatusQ := line }
      swResult := if line = true then 0x01#8 else 0x00#8 } ∧
    exec .csrRdEvPending s = .next { s with
      wires := { s.wires with evPendingQ := s.cur.evPending }
      swResult := if s.cur.evPending = true then 0x01#8 else 0x00#8 } ∧
    exec .csrRdEvCaptured s = .next { s with
      wires := { s.wires with evCapturedQ := s.cur.evCaptured }
      swResult := if s.cur.evCaptured = true then 0x01#8 else 0x00#8 } ∧
    exec .evIrq s = .next { s with wires := { s.wires with irq := s.cur.evPending } } ∧
    exec .dbgTaps s = .next { s with wires := { s.wires with
      dbgScl := s.cur.sclS2
      dbgSda := s.cur.sdaS2
      dbgSdaOe := decide (s.cur.state = .ackAddress1 ∨ s.cur.state = .ackAddress2 ∨ s.cur.state = .ackOffset1 ∨
        s.cur.state = .ackOffset2) || (s.cur.dataDrv && !s.cur.dataBit) } } ∧
    (tick s).wires.irq = s.cur.evPending ∧ (tick s).wires.dbgScl = s.cur.sclS2 ∧ (tick s).wires.dbgSda = s.cur.sdaS2

/-- 43_hpd_event_csr.md R210: which transitions of `state` raise the event, seen two ticks on: leaving or entering `WAIT_START`
sets the flag and captures the line; every other transition leaves both (the flag to the consumer's clear). -/
def Obligations.EventFollowsState : Prop :=
  ∀ s : State, NoEdge s →
    ((s.cur.state = .waitStart ↔ (tick s).cur.state = .waitStart) →
      (tick (tick s)).cur.evCaptured = s.cur.evCaptured ∧
      (s.now.evClear = false → (tick s).now.evClear = false → (tick (tick s)).cur.evPending = s.cur.evPending)) ∧
    (¬(s.cur.state = .waitStart ↔ (tick s).cur.state = .waitStart) →
      (tick (tick s)).cur.evPending = true ∧
      (tick (tick s)).cur.evCaptured = decide ((tick s).cur.state ≠ .waitStart))

/-! ## CRC checker -/

/-- 44_crc_checker.md R220 to R224: the handshake, from the level, the offered unit and the consumer's ready flag. -/
def Obligations.HandshakeWires : Prop :=
  ∀ s : State,
    let full := decide (s.cur.buf.length = 32 / s.params.dw.bits)
    let stb := s.now.sinkStb && full
    let out := stb && s.now.sourceAck
    let inn := s.now.sinkStb && (!full || out)
    exec .crcFull s = .next { s with wires := { s.wires with fifoFull := full } } ∧
    exec .crcSrcStb s = .next { s with wires := { s.wires with sourceStb := stb } } ∧
    exec .crcFifoOut s = .next { s with wires := { s.wires with fifoOut := out } } ∧
    exec .crcFifoIn s = .next { s with wires := { s.wires with fifoIn := inn } } ∧
    exec .crcSinkAck s = .next { s with wires := { s.wires with sinkAck := inn } } ∧
    (tick s).wires.fifoFull = full ∧ (tick s).wires.sourceStb = stb ∧ (tick s).wires.fifoOut = out ∧
    (tick s).wires.fifoIn = inn ∧ (tick s).wires.sinkAck = inn

/-- 44_crc_checker.md R225, R226: the output shows the head entry and the end mark of the unit at the input. For an empty buffer
the operation completes as well, with values the spec does not state (R227, log 9). -/
def Obligations.PayloadAndMarks : Prop :=
  ∀ s : State,
    (∀ (e : Entry) (rest : List Entry), s.cur.buf = e :: rest →
      exec .crcSrcPayload s = .next { s with wires := { s.wires with sourceData := e.data, sourceSop := e.sop } }) ∧
    (s.cur.buf = [] → ∃ (data : DataUnit) (sop : Bool),
      exec .crcSrcPayload s = .next { s with wires := { s.wires with sourceData := data, sourceSop := sop } }) ∧
    exec .crcSrcEop s = .next { s with wires := { s.wires with sourceEop := s.now.sinkEop } }

/-- 44_crc_checker.md R228: the clear wins; otherwise the head leaves on a pop and the unit at the input joins the tail on a
push. -/
def Obligations.BufferUpdate : Prop :=
  ∀ s : State,
    let full := decide (s.cur.buf.length = 32 / s.params.dw.bits)
    let out := s.now.sinkStb && full && s.now.sourceAck
    let inn := s.now.sinkStb && (!full || out)
    let unit : Entry := { data := unitOf s.params.dw s.now.sinkData, sop := s.now.sinkSop }
    let buffer :=
      if s.cur.cstate = .reset then []
      else (if out = true then s.cur.buf.drop 1 else s.cur.buf) ++ (if inn = true then [unit] else [])
    exec .crcBufUpdate s = .next { s with nxt := { s.nxt with buf := buffer } } ∧ (tick s).cur.buf = buffer

/-- 44_crc_checker.md R232 to R234: the engine's combinational output, the commit of the accumulator, the error flag, as functions
of the three parameters. What the parameters are is the next statement. -/
def Obligations.CrcEngineOperations : Prop :=
  ∀ s : State,
    let crcNext := crcUpdate s s.cur.crcAcc (unitOf s.params.dw s.now.sinkData)
    let full := decide (s.cur.buf.length = 32 / s.params.dw.bits)
    let accepted := s.now.sinkStb && (!full || s.now.sourceAck)
    let crcCe := accepted && ((s.cur.cstate == .idle && s.now.sinkSop) || s.cur.cstate == .copy)
    exec .crcEngineNext s = .next { s with wires := { s.wires with crcNext := crcNext } } ∧
    exec .crcEngineAcc s = .next { s with nxt := { s.nxt with
      crcAcc := if s.cur.cstate = .reset then crcInit s else if crcCe = true then crcNext else s.nxt.crcAcc } } ∧
    exec .crcSrcError s = .next { s with wires := { s.wires with sourceError := crcError s crcNext } } ∧
    (tick s).cur.crcAcc = (if s.cur.cstate = .reset then crcInit s else if crcCe = true then crcNext else s.cur.crcAcc) ∧
    (tick s).wires.sourceError = crcError s crcNext

/-- 44_crc_checker.md R235, R236: the three parameters are the external engine's where the configuration names that one, and else
those of R236: `CRC_INIT`, the loop over the unit's bits from bit 0 on, the residue. The reference engine is the spec's general
knowledge, and the choice between the two is the model's (log 8). -/
def Obligations.EngineParameters : Prop :=
  ∀ s : State,
    (s.params.engine = .external →
      crcInit s = Config.crcInit ∧ crcUpdate s = Config.crcUpdate s.params.dw ∧ crcError s = Config.crcError) ∧
    (s.params.engine = .reference →
      crcInit s = 0xFFFFFFFF#32 ∧
      (∀ (acc : Acc) (u : DataUnit), crcUpdate s acc u =
        (List.range s.params.dw.bits).foldl
          (fun (a : Acc) i => if (a.getLsbD 0 ^^ u.getLsbD i) = true then (a >>> 1) ^^^ 0xEDB88320#32 else a >>> 1) acc) ∧
      ∀ acc : Acc, crcError s acc = decide (acc ≠ 0xDEBB20E3#32))

/-- 44_crc_checker.md R237 to R241: the three rows with what their strobes command, the commit of `cstate`, the busy flag. That a row also assigns what the handshake's own rules R228 and R233
assign in that tick, the buffer among it, is inferred (log 18). -/
def Obligations.CheckerRows : Prop :=
  ∀ s : State,
    let full := decide (s.cur.buf.length = 32 / s.params.dw.bits)
    let out := s.now.sinkStb && full && s.now.sourceAck
    let accepted := s.now.sinkStb && (!full || s.now.sourceAck)
    let unit : Entry := { data := unitOf s.params.dw s.now.sinkData, sop := s.now.sinkSop }
    let buffer := (if out = true then s.cur.buf.drop 1 else s.cur.buf) ++ (if accepted = true then [unit] else [])
    let sum := crcUpdate s s.cur.crcAcc unit.data
    (s.cur.cstate = .reset →
      exec .cstReset s = .next (afterCrcRow s { s.nxt with cstate := .idle, crcAcc := crcInit s, buf := [] } true false) ∧
      (tick s).cur.cstate = .idle) ∧
    (s.cur.cstate = .idle → accepted = true → s.now.sinkSop = true →
      exec .cstIdle s = .next (afterCrcRow s { s.nxt with cstate := .copy, crcAcc := sum, buf := buffer } false true) ∧
      (tick s).cur.cstate = .copy) ∧
    (s.cur.cstate = .idle → ¬(accepted = true ∧ s.now.sinkSop = true) →
      exec .cstIdle s = .next (afterCrcRow s { s.nxt with cstate := .idle, buf := buffer } false false) ∧
      (tick s).cur.cstate = .idle) ∧
    (s.cur.cstate = .copy → accepted = true →
      exec .cstCopy s = .next (afterCrcRow s { s.nxt with
        cstate := if s.now.sinkEop = true then .reset else .copy, crcAcc := sum, buf := buffer } false true) ∧
      (tick s).cur.cstate = (if s.now.sinkEop = true then .reset else .copy)) ∧
    (s.cur.cstate = .copy → accepted = false →
      exec .cstCopy s = .next (afterCrcRow s { s.nxt with cstate := .copy, buf := buffer } false false) ∧
      (tick s).cur.cstate = .copy) ∧
    exec .crcBusy s = .next { s with wires := { s.wires with busy := decide (s.cur.cstate ≠ .idle) } } ∧
    (tick s).wires.busy = decide (s.cur.cstate ≠ .idle)

/-- 44_crc_checker.md R231: with a full buffer and no consumer nothing moves and nothing is lost. -/
def Obligations.BackPressureHolds : Prop :=
  ∀ s : State, s.cur.buf.length = 32 / s.params.dw.bits → s.now.sourceAck = false → s.cur.cstate ≠ .reset →
    (tick s).wires.sourceStb = s.now.sinkStb ∧ (tick s).wires.fifoOut = false ∧ (tick s).wires.fifoIn = false ∧
    (tick s).wires.sinkAck = false ∧ (tick s).cur.buf = s.cur.buf ∧ (tick s).cur.crcAcc = s.cur.crcAcc ∧
    (tick s).cur.cstate = s.cur.cstate

/-- 20_memory.md R81, 44_crc_checker.md R225, R228: first in, first out, bit for bit: over any number of ticks without a clear,
what the buffer held followed by what was accepted is what was emitted followed by what the buffer holds. -/
def Obligations.BufferIsFifo : Prop :=
  ∀ (k : Nat) (s : State), (∀ j, j < k → (ticks j s).cur.cstate ≠ .reset) →
    s.cur.buf.map (fun e => (e.data, e.sop)) ++ (acceptedOver k s).map (fun u => (u.data, u.sop)) =
      (emittedOver k s).map (fun b => (b.data, b.sop)) ++ (ticks k s).cur.buf.map (fun e => (e.data, e.sop))

/-- 44_crc_checker.md R242: the round trip. A frame of a payload and `RATIO` further units, accepted by an idle checker with an
empty buffer under any gaps and stalls, comes out as its payload, bit for bit, marked at its first and last unit. The error flag on
the last beat is the engine's verdict on the whole frame: 0 with the payload's check sequence, and 1 with one payload bit changed
under it, for an engine that meets R235. Two ticks after the frame's last unit the checker is idle, empty and cleared. -/
def Obligations.FrameRoundTrip : Prop :=
  ∀ (k : Nat) (s : State) (payload check : List DataUnit), s.cur.cstate = .idle → s.cur.buf = [] →
    s.cur.crcAcc = crcInit s → payload ≠ [] → check.length = 32 / s.params.dw.bits →
    acceptedOver k s ≠ frame (payload ++ check) → acceptedOver (k + 1) s = frame (payload ++ check) →
    (emittedOver (k + 1) s).map (fun b => ({ data := b.data, sop := b.sop, eop := b.eop } : StreamUnit)) = frame payload ∧
    (∃ b, (emittedOver (k + 1) s).getLast? = some b ∧
      b.error = crcError s ((payload ++ check).foldl (crcUpdate s) (crcInit s)) ∧
      (IsCheckSequence s payload check → b.error = false) ∧
      (EngineMeetsContract s → ∀ (before after : List DataUnit) (u : DataUnit) (bit : Nat), bit < s.params.dw.bits →
        payload = before ++ (u ^^^ BitVec.twoPow 32 bit) :: after → IsCheckSequence s (before ++ u :: after) check →
        b.error = true)) ∧
    (ticks (k + 1) s).cur.cstate = .reset ∧ (ticks (k + 2) s).cur.cstate = .idle ∧ (ticks (k + 2) s).cur.buf = [] ∧
    (ticks (k + 2) s).cur.crcAcc = crcInit s

/-- 44_crc_checker.md R235, R236: "This instance satisfies rule R235", in every state that has the reference engine, so for every
unit width: every payload has exactly one check sequence, and one changed payload bit shows as an error. The reference engine
itself is the spec's general knowledge (log 8). -/
def Obligations.ReferenceEngineContract : Prop :=
  ∀ s : State, s.params.engine = .reference → CrcContract s.params.dw (crcInit s) (crcUpdate s) (crcError s)

/-- 44_crc_checker.md R236: the reference engine's check sequence of a payload is the complement of its fold, sent least significant
unit first, and "folding a payload followed by its own check sequence always ends at `0xDEBB20E3`" (general knowledge of the spec:
log 8). -/
def Obligations.ReferenceCheckSequence : Prop :=
  ∀ (s : State) (payload : List DataUnit), s.params.engine = .reference →
    let check := referenceCheck s.params.dw (payload.foldl (crcUpdate s) (crcInit s))
    (payload ++ check).foldl (crcUpdate s) (crcInit s) = 0xDEBB20E3#32 ∧ IsCheckSequence s payload check

/-! ## The machine as a whole -/

/-- 20_memory.md R63: no operation writes the EDID memory; whatever a step does, every address reads as before. -/
def Obligations.NothingWritesMemory : Prop :=
  (∀ (i : Instr) (s t : State), exec i s = .next t →
    t.mem = s.mem ∧ t.params = s.params ∧ ∀ a : BitVec 7, memRead t a = memRead s a) ∧
  (∀ s t : State, step s = .next t → ∀ a : BitVec 7, memRead t a = memRead s a)

/-- 00_scope.md R7: a tick is its operations. Performed one after the other on primed registers that start as the committed ones,
they leave the registers and the wires of the tick, but for the enable bit's write and read-back, which are register accesses. A
tick is the next one in the count (R6); it takes its input record off `pending` (log 5), its primed registers are the committed ones
(log 3), and it touches nothing else. -/
def Obligations.TickPerformsOperations : Prop :=
  ∀ s : State, ∃ t : State, performAll tickOperations { s with nxt := s.cur } = some t ∧ t.cur = s.cur ∧ t.mem = s.mem ∧
    (tick s).cur = { t.nxt with hpdEn := if s.now.hpdEnWe = true then s.now.hpdEnWdata else s.cur.hpdEn } ∧
    (tick s).wires = { t.wires with hpdEnQ := s.cur.hpdEn } ∧
    tick s = { s with
      cur := (tick s).cur, nxt := (tick s).cur, wires := (tick s).wires, tick := s.tick + 1, pending := s.pending.drop 1 }

/-- 00_scope.md R3, 60_exceptions.md R268: the two engines share nothing: over any number of ticks the registers of each are fixed
by its own registers, parameters and inputs (the tick number is the index of the free values, log 5, log 10). -/
def Obligations.EnginesIndependent : Prop :=
  (∀ (k : Nat) (s u : State), edidRegs s.cur = edidRegs u.cur → s.mem = u.mem → s.tick = u.tick →
    s.params.hasHpdPin = u.params.hasHpdPin → (∀ j, j < k → sameEdidInputs (ticks j s).now (ticks j u).now) →
    edidRegs (ticks k s).cur = edidRegs (ticks k u).cur) ∧
  (∀ (k : Nat) (s u : State), crcRegs s.cur = crcRegs u.cur → s.params.dw = u.params.dw →
    s.params.engine = u.params.engine → (∀ j, j < k → sameCrcInputs (ticks j s).now (ticks j u).now) →
    crcRegs (ticks k s).cur = crcRegs (ticks k u).cur)

/-! ## The bus

Each of these follows an operation of the master through the reference waveform and boundary (log 16), whatever the sampler's
phase. -/

/-- 42_edid_fsm.md R170. START from an idle bus, in every state (`RCV_ADDRESS` and `RCV_OFFSET` are at counter 8 for one tick only,
in which no START can be seen: R166): it ends in `RCV_ADDRESS` with the counter at 0 and keeps the rest of the datapath. With the
enable bit at 0 nothing happens but the counter's reset. A repeated START first gives the engine a low phase and a rising edge;
where the engine leaves the data line high it then does the same from there; where the engine holds the line low, the line cannot
fall (41_byte_engine.md R140), no START is seen, and the operation is one more clock period with a 0. -/
def Obligations.StartConditions : Prop :=
  (∀ s : State, BusIdle s → Enabled s → NoEdge s →
    ¬(s.cur.counter = 8#4 ∧ (s.cur.state = .rcvAddress ∨ s.cur.state = .rcvOffset)) →
    ∃ t, exec (.busStart false) s = .next t ∧ BusKept s t 256 ∧ ClockLow t ∧ MasterKept s t ∧
      engineRegs t.cur = engineRegs { s.cur with state := .rcvAddress, counter := 0#4 } ∧ EventFollows s t) ∧
  (∀ s : State, BusIdle s → s.cur.hpdEn = false → s.pending = [] → NoEdge s → s.cur.state = .waitStart →
    ∃ t, exec (.busStart false) s = .next t ∧ t.mem = s.mem ∧ t.tick = s.tick + 256 ∧ t.cur.hpdEn = false ∧ ClockLow t ∧
      MasterKept s t ∧ engineRegs t.cur = engineRegs { s.cur with counter := 0#4 } ∧ EventKept s t) ∧
  (∀ s : State, ClockLow s → Enabled s → NoEdge s → s.cur.counter.toNat ≤ 8 → Framed s →
    pulls (lowPhase s s.cur) = false →
    let risen := highPhase true (lowPhase s s.cur)
    ∃ t, exec (.busStart true) s = .next t ∧ BusKept s t 512 ∧ ClockLow t ∧ MasterKept s t ∧
      engineRegs t.cur = engineRegs { risen with state := .rcvAddress, counter := 0#4 } ∧
      (risen.state = .waitStart → EventRaised true t) ∧ (risen.state ≠ .waitStart → EventKept s t)) ∧
  (∀ s : State, ClockLow s → Enabled s → NoEdge s → s.cur.counter.toNat ≤ 8 → Framed s →
    pulls (lowPhase s s.cur) = true →
    ∃ t, exec (.busStart true) s = .next t ∧ BusKept s t 512 ∧ ClockLow t ∧ MasterKept s t ∧
      engineRegs t.cur = engineRegs (lowPhase s (highPhase false (lowPhase s s.cur))) ∧ EventFollows s t)

/-- 42_edid_fsm.md R171, R172: an address byte that matches is acknowledged; a write ends in `RCV_OFFSET`, a read in `READ`
presenting the first bit; the offset does not move. -/
def Obligations.AddressMatches : Prop :=
  ∀ s : State, ClockLow s → Enabled s → NotPulling s → NoEdge s → s.cur.state = .rcvAddress → s.cur.counter = 0#4 →
    (∃ t, exec .busAddrW s = .next t ∧ BusKept s t 4608 ∧ ClockLow t ∧ t.cur.state = .rcvOffset ∧ t.cur.counter = 0#4 ∧
      t.cur.din = 0xA0#8 ∧ t.cur.isRead = false ∧ t.cur.offset = s.cur.offset ∧ DriveKept s t ∧ EventKept s t ∧
      t.masterAck = false ∧ t.masterByte = s.masterByte) ∧
    (∃ t, exec .busAddrR s = .next t ∧ BusKept s t 4608 ∧ ClockLow t ∧ t.cur.state = .read ∧ t.cur.counter = 0#4 ∧
      t.cur.din = 0xA1#8 ∧ t.cur.isRead = true ∧ t.cur.offset = s.cur.offset ∧
      Presents ((memRead s s.cur.offset).getLsbD 7) t ∧ EventKept s t ∧ t.masterAck = false ∧
      t.masterByte = s.masterByte)

/-- 42_edid_fsm.md R173: any other address byte is not acknowledged, the engine goes back to `WAIT_START`, and the event line
falls. -/
def Obligations.AddressMisses : Prop :=
  ∀ (s : State) (addr : BitVec 7) (rw : Bool), ClockLow s → Enabled s → NotPulling s → NoEdge s →
    s.cur.state = .rcvAddress → s.cur.counter = 0#4 → addr ≠ 0x50#7 →
    ∃ t, exec (.busAddrMiss addr rw) s = .next t ∧ BusKept s t 4608 ∧ ClockLow t ∧ t.cur.state = .waitStart ∧
      t.cur.counter = 0#4 ∧ t.cur.din = BitVec.concat addr rw ∧ t.cur.isRead = s.cur.isRead ∧
      t.cur.offset = s.cur.offset ∧ DriveKept s t ∧ EventRaised false t ∧ t.masterAck = true ∧
      t.masterByte = s.masterByte

/-- 42_edid_fsm.md R174: an offset byte loads its low seven bits, is acknowledged whatever its bit 7, and ends in
`RCV_ADDRESS`. -/
def Obligations.OffsetByteLoads : Prop :=
  ∀ (s : State) (ignored : Bool) (off : BitVec 7), ClockLow s → Enabled s → NotPulling s → NoEdge s →
    s.cur.state = .rcvOffset → s.cur.counter = 0#4 →
    ∃ t, exec (.busOffset ignored off) s = .next t ∧ BusKept s t 4608 ∧ ClockLow t ∧ t.cur.state = .rcvAddress ∧
      t.cur.counter = 0#4 ∧ t.cur.din = BitVec.cons ignored off ∧ t.cur.isRead = s.cur.isRead ∧ t.cur.offset = off ∧
      DriveKept s t ∧ EventKept s t ∧ t.masterAck = false ∧ t.masterByte = s.masterByte

/-- 42_edid_fsm.md R175: the master reads the byte at the offset; the engine then waits in `ACK_READ` with the line released and
the offset where it was. -/
def Obligations.ByteIsRead : Prop :=
  ∀ s : State, ClockLow s → Enabled s → NoEdge s → s.cur.state = .read → s.cur.counter = 0#4 →
    ∃ t, exec .busRdbyte s = .next t ∧ BusKept s t 4096 ∧ ClockLow t ∧ t.masterByte = memRead s s.cur.offset ∧
      t.masterAck = s.masterAck ∧ t.cur.state = .ackRead ∧ t.cur.counter = 8#4 ∧ t.cur.din = memRead s s.cur.offset ∧
      t.cur.isRead = s.cur.isRead ∧ t.cur.offset = s.cur.offset ∧ t.cur.dataDrv = false ∧
      t.cur.dataBit = (memRead s s.cur.offset).getLsbD 0 ∧ EventKept s t

/-- 42_edid_fsm.md R177, R178: the master's acknowledge bit. The offset moves on by one modulo 128 either way; ACK leads to the
next byte, NACK ends the transaction and drops the event line. -/
def Obligations.MasterAcknowledges : Prop :=
  ∀ s : State, ClockLow s → Enabled s → NotPulling s → NoEdge s → s.cur.state = .ackRead → s.cur.counter = 8#4 →
    (∃ t, exec .busMack s = .next t ∧ BusKept s t 512 ∧ ClockLow t ∧ MasterKept s t ∧ t.cur.state = .read ∧
      t.cur.counter = 0#4 ∧ t.cur.din = s.cur.din ∧ t.cur.isRead = s.cur.isRead ∧ t.cur.offset = s.cur.offset + 1#7 ∧
      Presents ((memRead s (s.cur.offset + 1#7)).getLsbD 7) t ∧ EventKept s t) ∧
    (∃ t, exec .busMnack s = .next t ∧ BusKept s t 512 ∧ ClockLow t ∧ MasterKept s t ∧ t.cur.state = .waitStart ∧
      t.cur.counter = 0#4 ∧ t.cur.din = s.cur.din ∧ t.cur.isRead = s.cur.isRead ∧ t.cur.offset = s.cur.offset + 1#7 ∧
      DriveKept s t ∧ EventRaised false t)

/-- 42_edid_fsm.md R176: STOP is not decoded. In every state it is a clock-low phase and one rising clock edge with the data low,
which moves the counter, shifts a 0 in, and is taken as a bit by whatever state waits for one (the acknowledge bit in `ACK_READ`);
the rising data line does nothing. The bus is idle after it unless the engine holds the data line. -/
def Obligations.StopIsNotDecoded : Prop :=
  ∀ s : State, ClockLow s → Enabled s → NoEdge s → s.cur.counter.toNat ≤ 8 → Framed s →
    let risen := highPhase false (lowPhase s s.cur)
    ∃ t, exec .busStop s = .next t ∧ BusKept s t 384 ∧ ClockAt true t ∧ DataAt (!pulls risen) t ∧ MasterKept s t ∧
      engineRegs t.cur = engineRegs risen ∧ EventFollows s t

/-- 30_encoding.md R95, 42_edid_fsm.md R180 property 3: read fidelity. Any number of bytes read with acknowledges are the bytes of
the memory from the offset on, wrapping at 128, and the offset has moved on by their number. -/
def Obligations.SequentialRead : Prop :=
  ∀ (n : Nat) (s : State), ClockLow s → Enabled s → NoEdge s → s.cur.state = .read → s.cur.counter = 0#4 →
    ∃ t, readBytes n s = some (bytesFrom s s.cur.offset n, t) ∧ ClockLow t ∧ Enabled t ∧ NoEdge t ∧ t.cur.state = .read ∧
      t.cur.counter = 0#4 ∧ t.cur.offset = s.cur.offset + BitVec.ofNat 7 n ∧ t.mem = s.mem

/-- 30_encoding.md R96: the random read, from an idle bus to an idle bus: offset write, repeated START, read address, `n` bytes with
acknowledge and one without, STOP. -/
def Obligations.RandomRead : Prop :=
  ∀ (s : State) (ignored : Bool) (off : BitVec 7) (n : Nat), BusIdle s → Enabled s → NotPulling s → NoEdge s →
    s.cur.state = .waitStart →
    ∃ t u v, performAll [.busStart false, .busAddrW, .busOffset ignored off, .busStart true, .busAddrR] s = some t ∧
      readBytes n t = some (bytesFrom s off n, u) ∧ performAll [.busRdbyte, .busMnack, .busStop] u = some v ∧
      v.masterByte = memRead s (off + BitVec.ofNat 7 n) ∧ v.cur.offset = off + BitVec.ofNat 7 (n + 1) ∧
      v.cur.state = .waitStart ∧ BusIdle v ∧ NotPulling v ∧ EventRaised false v ∧ v.mem = s.mem

end Statements
end

