-- ==== Sys2Proof/Laws/Memory.lean ====
section
/-! SUPPORT. Laws/Memory.lean: the laws of the EDID memory: what a read gives after a write, and that every operation on the
list of cells keeps the canonical form. -/

namespace Sys2Proof.Machine

/-! ## Reading -/

@[simp] theorem Memory.read_nil (a : BitVec 7) : Memory.read [] a = Config.edidImage a := rfl

theorem Memory.find_append (m n : List Host.Cell) (a : Nat) :
    Memory.find (m ++ n) a = (Memory.find m a).orElse fun _ => Memory.find n a := by
  induction m with
  | nil => rfl
  | cons c m ih =>
    obtain ⟨k, v⟩ := c
    simp only [List.cons_append, Memory.find]
    split
    · rfl
    · exact ih

/-- No cell from `lo` on is at an address below `lo`. -/
theorem Memory.find_of_lt {lo a : Nat} {m : List Host.Cell} (h : Memory.wfFrom lo m = true) (ha : a < lo) :
    Memory.find m a = none := by
  induction m generalizing lo with
  | nil => rfl
  | cons c m ih =>
    obtain ⟨k, v⟩ := c
    simp only [Memory.wfFrom, Bool.and_eq_true, decide_eq_true_eq] at h
    have hk : ¬ k = a := by omega
    simp only [Memory.find, if_neg hk]
    exact ih h.2 (by omega)

/-- A cell says what its address reads as. -/
theorem Memory.find_cell (a : BitVec 7) (b : Byte) :
    (Memory.find (Memory.cell a b) a.toNat).getD (Config.edidImage a) = b := by
  unfold Memory.cell
  split
  · next h => simp [Memory.find, h]
  · simp [Memory.find]

/-- A cell says nothing of another address. -/
theorem Memory.find_cell_ne {a c : BitVec 7} (b : Byte) (h : c ≠ a) : Memory.find (Memory.cell a b) c.toNat = none := by
  have hn : ¬ a.toNat = c.toNat := fun e => h (BitVec.eq_of_toNat_eq e.symm)
  unfold Memory.cell
  split
  · rfl
  · simp [Memory.find, hn]

theorem Memory.wfFrom_mono {lo hi : Nat} {m : List Host.Cell} (h : Memory.wfFrom hi m = true) (hl : lo ≤ hi) :
    Memory.wfFrom lo m = true := by
  cases m with
  | nil => rfl
  | cons c m =>
    obtain ⟨k, v⟩ := c
    simp only [Memory.wfFrom, Bool.and_eq_true, decide_eq_true_eq] at h ⊢
    exact ⟨⟨⟨by omega, h.1.1.2⟩, h.1.2⟩, h.2⟩

/-- A cell followed by cells above it is in canonical form. -/
theorem Memory.wfFrom_cell_append {lo : Nat} {a : BitVec 7} {b : Byte} {m : List Host.Cell} (hl : lo ≤ a.toNat)
    (h : Memory.wfFrom (a.toNat + 1) m = true) : Memory.wfFrom lo (Memory.cell a b ++ m) = true := by
  unfold Memory.cell
  split
  · exact Memory.wfFrom_mono h (by omega)
  · next hb =>
    have ha : a.toNat < Config.memBytes := a.isLt
    have he : BitVec.ofNat 7 a.toNat = a := by simp
    simp [Memory.wfFrom, hl, ha, he, hb, h]

/-! ## Writing -/

/-- A write keeps the canonical form. -/
theorem Memory.write_wfFrom {lo : Nat} {m : List Host.Cell} {a : BitVec 7} {b : Byte} (hl : lo ≤ a.toNat)
    (h : Memory.wfFrom lo m = true) : Memory.wfFrom lo (Memory.write m a b) = true := by
  induction m generalizing lo with
  | nil => simpa [Memory.write] using Memory.wfFrom_cell_append (b := b) (m := []) hl rfl
  | cons c m ih =>
    obtain ⟨k, v⟩ := c
    have hc := h
    simp only [Memory.wfFrom, Bool.and_eq_true, decide_eq_true_eq] at hc
    unfold Memory.write
    split
    · refine Memory.wfFrom_cell_append hl ?_
      simp only [Memory.wfFrom, Bool.and_eq_true, decide_eq_true_eq]
      exact ⟨⟨⟨by omega, hc.1.1.2⟩, hc.1.2⟩, hc.2⟩
    · split
      · next hk => exact Memory.wfFrom_cell_append hl (hk ▸ hc.2)
      · simp only [Memory.wfFrom, Bool.and_eq_true, decide_eq_true_eq]
        exact ⟨hc.1, ih (by omega) hc.2⟩

theorem Memory.write_wf {m : List Host.Cell} (a : BitVec 7) (b : Byte) (h : Memory.wf m = true) :
    Memory.wf (Memory.write m a b) = true := Memory.write_wfFrom (Nat.zero_le _) h

theorem Memory.getD_orElse (o p : Option Byte) (d : Byte) :
    (o.orElse fun _ => p).getD d = o.getD (p.getD d) := by cases o <;> rfl

/-- The byte written is the byte read. -/
theorem Memory.read_write_same {lo : Nat} {m : List Host.Cell} (a : BitVec 7) (b : Byte) (h : Memory.wfFrom lo m = true) :
    Memory.read (Memory.write m a b) a = b := by
  induction m generalizing lo with
  | nil => exact Memory.find_cell a b
  | cons c m ih =>
    obtain ⟨k, v⟩ := c
    simp only [Memory.wfFrom, Bool.and_eq_true, decide_eq_true_eq] at h
    unfold Memory.read Memory.write
    split
    · next hk =>
      have hn : Memory.find ((k, v) :: m) a.toNat = none := by
        have : ¬ k = a.toNat := by omega
        simp only [Memory.find, if_neg this]
        exact Memory.find_of_lt h.2 (by omega)
      rw [Memory.find_append, Memory.getD_orElse, hn]
      exact Memory.find_cell a b
    · split
      · next hk =>
        rw [Memory.find_append, Memory.getD_orElse, Memory.find_of_lt h.2 (by omega)]
        exact Memory.find_cell a b
      · next hk =>
        have : ¬ k = a.toNat := fun e => hk e.symm
        simp only [Memory.find, if_neg this]
        exact ih h.2

/-- Every other address reads as before. -/
theorem Memory.read_write_other (m : List Host.Cell) {a c : BitVec 7} (b : Byte) (h : c ≠ a) :
    Memory.read (Memory.write m a b) c = Memory.read m c := by
  have hn : ¬ a.toNat = c.toNat := fun e => h (BitVec.eq_of_toNat_eq e.symm)
  induction m with
  | nil => simp [Memory.read, Memory.write, Memory.find_cell_ne b h, Memory.find]
  | cons d m ih =>
    obtain ⟨k, v⟩ := d
    unfold Memory.read at ih ⊢
    unfold Memory.write
    split
    · rw [Memory.find_append, Memory.find_cell_ne b h]; rfl
    · split
      · next hk =>
        rw [Memory.find_append, Memory.find_cell_ne b h]
        simp [Memory.find, ← hk, hn]
      · simp only [Memory.find]
        split
        · rfl
        · exact ih

/-! ## Loading an image -/

/-- The loader keeps the canonical form. -/
theorem loadImage_wf {m : List Host.Cell} (a : Nat) (bytes : List Nat) (h : Memory.wf m = true) :
    Memory.wf (loadImage m a bytes) = true := by
  induction bytes generalizing m a with
  | nil => exact h
  | cons b bs ih => exact ih (a + 1) (Memory.write_wf _ _ h)

/-- Addresses below the place loaded from read as before. -/
theorem loadImage_read_below {m : List Host.Cell} (a : Nat) (bytes : List Nat) (c : BitVec 7) (hc : c.toNat < a)
    (hl : a + bytes.length ≤ 128) : Memory.read (loadImage m a bytes) c = Memory.read m c := by
  induction bytes generalizing m a with
  | nil => rfl
  | cons b bs ih =>
    simp only [List.length_cons] at hl
    rw [loadImage, ih (a + 1) (by omega) (by omega)]
    refine Memory.read_write_other m _ ?_
    intro e
    have := congrArg BitVec.toNat e
    simp only [BitVec.toNat_ofNat] at this
    omega

/-- The memory right after reset is in canonical form. -/
theorem reset_memory_wf : Memory.wf State.reset.mem = true := rfl

/-- `configure` answers the reset state with the image loaded and the parameters set. -/
theorem configure_ok {dw : Nat} {image : List Nat} {p q : Bool} {e : CrcEngine} {s : State}
    (h : configure dw image p q e = .ok s) :
    ∃ w, widthOf dw = some w ∧ image.length = 128 ∧
      s = { State.reset with
        mem := loadImage [] 0 image
        params := { dw := w, hasHpdPin := p, hasHpdEnPin := q, engine := e } } := by
  unfold configure at h
  split at h
  · cases h
  · next w hw =>
    split at h
    · next hi =>
      cases h
      exact ⟨w, hw, hi.1, rfl⟩
    · cases h

/-- The memory of a configured machine is in canonical form. -/
theorem configure_memory_wf {dw : Nat} {image : List Nat} {p q : Bool} {e : CrcEngine} {s : State}
    (h : configure dw image p q e = .ok s) : Memory.wf s.mem = true := by
  obtain ⟨w, -, -, rfl⟩ := configure_ok h
  exact loadImage_wf 0 image rfl

end Sys2Proof.Machine
end

