-- ==== Sys2Proof/Laws/State.lean ====
section
/-! SUPPORT. Laws/State.lean: the fields of a state after each update, true by unfolding. -/

namespace Sys2Proof.Machine

section Stage
variable (s : State) (f : State → Regs → Regs)
@[simp] theorem State.stage_cur : (s.stage f).cur = s.cur := rfl
@[simp] theorem State.stage_nxt : (s.stage f).nxt = f s s.nxt := rfl
@[simp] theorem State.stage_wires : (s.stage f).wires = s.wires := rfl
@[simp] theorem State.stage_mem : (s.stage f).mem = s.mem := rfl
@[simp] theorem State.stage_params : (s.stage f).params = s.params := rfl
@[simp] theorem State.stage_tick : (s.stage f).tick = s.tick := rfl
@[simp] theorem State.stage_pending : (s.stage f).pending = s.pending := rfl
@[simp] theorem State.stage_script : (s.stage f).script = s.script := rfl
@[simp] theorem State.stage_swResult : (s.stage f).swResult = s.swResult := rfl
@[simp] theorem State.stage_masterByte : (s.stage f).masterByte = s.masterByte := rfl
@[simp] theorem State.stage_masterAck : (s.stage f).masterAck = s.masterAck := rfl
@[simp] theorem State.stage_now : (s.stage f).now = s.now := rfl
end Stage

section Drive
variable (s : State) (g : State → Wires → Wires)
@[simp] theorem State.drive_cur : (s.drive g).cur = s.cur := rfl
@[simp] theorem State.drive_nxt : (s.drive g).nxt = s.nxt := rfl
@[simp] theorem State.drive_wires : (s.drive g).wires = g s s.wires := rfl
@[simp] theorem State.drive_mem : (s.drive g).mem = s.mem := rfl
@[simp] theorem State.drive_params : (s.drive g).params = s.params := rfl
@[simp] theorem State.drive_tick : (s.drive g).tick = s.tick := rfl
@[simp] theorem State.drive_pending : (s.drive g).pending = s.pending := rfl
@[simp] theorem State.drive_script : (s.drive g).script = s.script := rfl
@[simp] theorem State.drive_swResult : (s.drive g).swResult = s.swResult := rfl
@[simp] theorem State.drive_masterByte : (s.drive g).masterByte = s.masterByte := rfl
@[simp] theorem State.drive_masterAck : (s.drive g).masterAck = s.masterAck := rfl
@[simp] theorem State.drive_now : (s.drive g).now = s.now := rfl
end Drive

section WithNow
variable (s : State) (i : Inputs)
@[simp] theorem State.withNow_cur : (s.withNow i).cur = s.cur := rfl
@[simp] theorem State.withNow_nxt : (s.withNow i).nxt = s.nxt := rfl
@[simp] theorem State.withNow_wires : (s.withNow i).wires = s.wires := rfl
@[simp] theorem State.withNow_mem : (s.withNow i).mem = s.mem := rfl
@[simp] theorem State.withNow_params : (s.withNow i).params = s.params := rfl
@[simp] theorem State.withNow_tick : (s.withNow i).tick = s.tick := rfl
@[simp] theorem State.withNow_pending : (s.withNow i).pending = i :: s.pending.tail := rfl
@[simp] theorem State.withNow_script : (s.withNow i).script = s.script := rfl
@[simp] theorem State.withNow_swResult : (s.withNow i).swResult = s.swResult := rfl
@[simp] theorem State.withNow_masterByte : (s.withNow i).masterByte = s.masterByte := rfl
@[simp] theorem State.withNow_masterAck : (s.withNow i).masterAck = s.masterAck := rfl
@[simp] theorem State.withNow_now : (s.withNow i).now = i := rfl
end WithNow

section ReadRegister
variable (s : State) (b : Bool)
@[simp] theorem readRegister_cur : (readRegister s b).cur = s.cur := rfl
@[simp] theorem readRegister_nxt : (readRegister s b).nxt = s.nxt := rfl
@[simp] theorem readRegister_wires : (readRegister s b).wires = s.wires := rfl
@[simp] theorem readRegister_mem : (readRegister s b).mem = s.mem := rfl
@[simp] theorem readRegister_params : (readRegister s b).params = s.params := rfl
@[simp] theorem readRegister_tick : (readRegister s b).tick = s.tick := rfl
@[simp] theorem readRegister_pending : (readRegister s b).pending = s.pending := rfl
@[simp] theorem readRegister_script : (readRegister s b).script = s.script := rfl
@[simp] theorem readRegister_swResult : (readRegister s b).swResult = softwareWord b := rfl
@[simp] theorem readRegister_masterByte : (readRegister s b).masterByte = s.masterByte := rfl
@[simp] theorem readRegister_masterAck : (readRegister s b).masterAck = s.masterAck := rfl
end ReadRegister

/-! ## The tick, field by field -/

section Tick
variable (s : State)
@[simp] theorem tick_mem : (tick s).mem = s.mem := rfl
@[simp] theorem tick_params : (tick s).params = s.params := rfl
@[simp] theorem tick_tick : (tick s).tick = s.tick + 1 := rfl
@[simp] theorem tick_pending : (tick s).pending = s.pending.tail := rfl
@[simp] theorem tick_script : (tick s).script = s.script := rfl
@[simp] theorem tick_swResult : (tick s).swResult = s.swResult := rfl
@[simp] theorem tick_masterByte : (tick s).masterByte = s.masterByte := rfl
@[simp] theorem tick_masterAck : (tick s).masterAck = s.masterAck := rfl
theorem tick_nxt : (tick s).nxt = (tick s).cur := rfl

/-- 40_sync_edge.md R110. -/
@[simp] theorem tick_sclS1 : (tick s).cur.sclS1 = s.now.sclPin := rfl
@[simp] theorem tick_sclS2 : (tick s).cur.sclS2 = s.cur.sclS1 := rfl
/-- R111. -/
@[simp] theorem tick_sdaS1 : (tick s).cur.sdaS1 = s.now.sdaPin := rfl
@[simp] theorem tick_sdaS2 : (tick s).cur.sdaS2 = s.cur.sdaS1 := rfl
/-- R112. -/
@[simp] theorem tick_sampCount : (tick s).cur.sampCount = s.cur.sampCount + 1#6 := rfl
/-- R114. -/
@[simp] theorem tick_sclI : (tick s).cur.sclI = if sampCarry s then s.cur.sclS2 else s.cur.sclI := rfl
@[simp] theorem tick_sdaI : (tick s).cur.sdaI = if sampCarry s then s.cur.sdaS2 else s.cur.sdaI := rfl
/-- R115, R116. -/
@[simp] theorem tick_sclR : (tick s).cur.sclR = s.cur.sclI := rfl
@[simp] theorem tick_sdaR : (tick s).cur.sdaR = s.cur.sdaI := rfl
/-- 41_byte_engine.md R130. -/
@[simp] theorem tick_counter : (tick s).cur.counter =
    if start s then 0#4
    else if sclRising s then (if byteDone s then 0#4 else s.cur.counter + 1#4) else s.cur.counter := rfl
/-- R131. -/
@[simp] theorem tick_din : (tick s).cur.din =
    if !start s && sclRising s && !byteDone s then shiftedIn s else s.cur.din := rfl
/-- R133. -/
@[simp] theorem tick_isRead : (tick s).cur.isRead =
    if (currentRow s).updateIsRead then rxRw s else s.cur.isRead := rfl
/-- R135, R136. -/
@[simp] theorem tick_offset : (tick s).cur.offset =
    if !(currentRow s).ocLoad && (currentRow s).ocInc then s.cur.offset + 1#7
    else if (currentRow s).ocLoad then rxOff s else s.cur.offset := rfl
/-- R138. -/
@[simp] theorem tick_dataBit : (tick s).cur.dataBit =
    if (currentRow s).dataDrvEn then bitToSend s else s.cur.dataBit := rfl
/-- R139. -/
@[simp] theorem tick_dataDrv : (tick s).cur.dataDrv =
    if (currentRow s).dataDrvEn then true else if (currentRow s).dataDrvStop then false else s.cur.dataDrv := rfl
/-- 42_edid_fsm.md R150. -/
@[simp] theorem tick_state : (tick s).cur.state = nextState s := rfl
/-- 43_hpd_event_csr.md R190. -/
@[simp] theorem tick_hpdS1 : (tick s).cur.hpdS1 = if s.params.hasHpdPin then s.now.hpdPin else s.cur.hpdS1 := rfl
@[simp] theorem tick_hpdS2 : (tick s).cur.hpdS2 = if s.params.hasHpdPin then s.cur.hpdS1 else s.cur.hpdS2 := rfl
/-- R193. -/
@[simp] theorem tick_hpdEn : (tick s).cur.hpdEn = if s.now.hpdEnWe then s.now.hpdEnWdata else s.cur.hpdEn := rfl
/-- R200. -/
@[simp] theorem tick_evLineR : (tick s).cur.evLineR = evLine s := rfl
/-- R201. -/
@[simp] theorem tick_evPending : (tick s).cur.evPending =
    if evEdge s then true else if s.now.evClear then false else s.cur.evPending := rfl
/-- R202. -/
@[simp] theorem tick_evCaptured : (tick s).cur.evCaptured = if evEdge s then evLine s else s.cur.evCaptured := rfl
/-- 44_crc_checker.md R237. -/
@[simp] theorem tick_cstate : (tick s).cur.cstate = (currentCrcRow s).next := rfl
/-- R233. -/
@[simp] theorem tick_crcAcc : (tick s).cur.crcAcc =
    if (currentCrcRow s).crcReset then crcInit s
    else if (currentCrcRow s).crcCe then crcNext s else s.cur.crcAcc := rfl
/-- R228. -/
@[simp] theorem tick_buf : (tick s).cur.buf = bufNext s := rfl

/-- The wires of a tick, each by its rule; none is left from the tick before. -/
theorem tick_wires : (tick s).wires =
    { sampCarry := sampCarry s
      sclRising := sclRising s
      sdaRising := sdaRising s
      sdaFalling := sdaFalling s
      start := start s
      addrMatch := addrMatch s
      updateIsRead := (currentRow s).updateIsRead
      ocLoad := (currentRow s).ocLoad
      ocInc := (currentRow s).ocInc
      dataDrvEn := (currentRow s).dataDrvEn
      dataDrvStop := (currentRow s).dataDrvStop
      zeroDrv := zeroDrv s
      memByte := memByte s
      nextState := nextState s
      evLine := evLine s
      evEdge := evEdge s
      sdaO := false
      sdaOe := sdaOe s
      hpdEnPin := hpdEnPin s
      hpdNotif := hpdNotif s
      hpdEnQ := s.cur.hpdEn
      evPendingQ := s.cur.evPending
      evCapturedQ := s.cur.evCaptured
      evStatusQ := evLine s
      irq := s.cur.evPending
      dbgScl := s.cur.sclS2
      dbgSda := s.cur.sdaS2
      dbgSdaOe := sdaOe s
      fifoFull := fifoFull s
      sourceStb := sourceStb s
      fifoOut := fifoOut s
      fifoIn := fifoIn s
      sinkAck := sinkAck s
      sourceData := sourceData s
      sourceSop := sourceSop s
      sourceEop := sourceEop s
      crcNext := crcNext s
      crcCe := (currentCrcRow s).crcCe
      crcReset := (currentCrcRow s).crcReset
      fifoReset := (currentCrcRow s).fifoReset
      sourceError := sourceError s
      busy := busy s } := rfl
end Tick

section BusTick
variable (c d : Bool) (s : State)
@[simp] theorem busTick_mem : (busTick c d s).mem = s.mem := rfl
@[simp] theorem busTick_params : (busTick c d s).params = s.params := rfl
@[simp] theorem busTick_pending : (busTick c d s).pending = s.pending.tail := rfl
@[simp] theorem busTick_tick : (busTick c d s).tick = s.tick + 1 := rfl
@[simp] theorem busTick_script : (busTick c d s).script = s.script := rfl
@[simp] theorem busTick_swResult : (busTick c d s).swResult = s.swResult := rfl
@[simp] theorem busTick_masterByte : (busTick c d s).masterByte = s.masterByte := rfl
@[simp] theorem busTick_masterAck : (busTick c d s).masterAck = s.masterAck := rfl
end BusTick

end Sys2Proof.Machine
end

