-- ==== Sys2Proof/Laws/Ops.lean ====
section
/-! SUPPORT. Laws/Ops.lean: for each shared operation, once, everything it can do. -/

namespace Sys2Proof.Machine

/-! ## The inputs of a tick -/

theorem State.now_of_pending {s : State} {i : Inputs} {is : List Inputs} (h : s.pending = i :: is) : s.now = i := by
  simp [State.now, h]

theorem State.now_of_nil {s : State} (h : s.pending = []) : s.now = Config.envInputs s.tick := by
  simp [State.now, h]

/-! ## The unit at the checker's input -/

/-- Cutting a unit to its width a second time changes nothing. -/
@[simp] theorem unitOf_unitOf (w : DataWidth) (d : DataUnit) : unitOf w (unitOf w d) = unitOf w d := by
  cases w <;> simp [unitOf, DataWidth.bits]

theorem sinkUnit_narrow (s : State) : unitOf s.params.dw (sinkUnit s) = sinkUnit s := unitOf_unitOf _ _

theorem ratio_pos (w : DataWidth) : 0 < w.ratio := by cases w <;> decide

/-! ## The rows of the protocol machine: which state raises which strobe (42_edid_fsm.md R168) -/

theorem currentRow_updateIsRead (s : State) :
    (currentRow s).updateIsRead = (s.cur.state == .rcvAddress && byteDone s && addrMatch s) := by
  unfold currentRow
  cases h : s.cur.state <;>
    simp only [rowWaitStart, rowRcvAddress, rowAckAddress0, rowAckAddress1, rowAckAddress2, rowRcvOffset, rowAckOffset0,
      rowAckOffset1, rowAckOffset2, rowRead, rowAckRead, quietRow] <;>
    cases byteDone s <;> cases addrMatch s <;> cases s.cur.sclI <;> cases sclRising s <;> rfl

theorem currentRow_ocLoad (s : State) : (currentRow s).ocLoad = (s.cur.state == .rcvOffset && byteDone s) := by
  unfold currentRow
  cases h : s.cur.state <;>
    simp only [rowWaitStart, rowRcvAddress, rowAckAddress0, rowAckAddress1, rowAckAddress2, rowRcvOffset, rowAckOffset0,
      rowAckOffset1, rowAckOffset2, rowRead, rowAckRead, quietRow] <;>
    cases byteDone s <;> cases addrMatch s <;> cases s.cur.sclI <;> cases sclRising s <;> rfl

theorem currentRow_ocInc (s : State) : (currentRow s).ocInc = (s.cur.state == .ackRead && sclRising s) := by
  unfold currentRow
  cases h : s.cur.state <;>
    simp only [rowWaitStart, rowRcvAddress, rowAckAddress0, rowAckAddress1, rowAckAddress2, rowRcvOffset, rowAckOffset0,
      rowAckOffset1, rowAckOffset2, rowRead, rowAckRead, quietRow] <;>
    cases byteDone s <;> cases addrMatch s <;> cases s.cur.sclI <;> cases sclRising s <;> rfl

theorem currentRow_dataDrvEn (s : State) :
    (currentRow s).dataDrvEn = (s.cur.state == .read && !s.cur.sclI && !byteDone s) := by
  unfold currentRow
  cases h : s.cur.state <;>
    simp only [rowWaitStart, rowRcvAddress, rowAckAddress0, rowAckAddress1, rowAckAddress2, rowRcvOffset, rowAckOffset0,
      rowAckOffset1, rowAckOffset2, rowRead, rowAckRead, quietRow] <;>
    cases byteDone s <;> cases addrMatch s <;> cases s.cur.sclI <;> cases sclRising s <;> rfl

theorem currentRow_dataDrvStop (s : State) :
    (currentRow s).dataDrvStop = (s.cur.state == .read && !s.cur.sclI && byteDone s) := by
  unfold currentRow
  cases h : s.cur.state <;>
    simp only [rowWaitStart, rowRcvAddress, rowAckAddress0, rowAckAddress1, rowAckAddress2, rowRcvOffset, rowAckOffset0,
      rowAckOffset1, rowAckOffset2, rowRead, rowAckRead, quietRow] <;>
    cases byteDone s <;> cases addrMatch s <;> cases s.cur.sclI <;> cases sclRising s <;> rfl

/-- `zero_drv` names four states (R167). -/
theorem zeroDrv_eq (s : State) : zeroDrv s = (s.cur.state == .ackAddress1 || s.cur.state == .ackAddress2 ||
    s.cur.state == .ackOffset1 || s.cur.state == .ackOffset2) := by
  cases h : s.cur.state <;> simp [zeroDrv, h]

/-- Without an override the row decides (R150). -/
theorem nextState_of_row {s : State} (he : s.cur.hpdEn = true) (hs : start s = false) :
    nextState s = (currentRow s).next := by simp [nextState, he, hs]

/-- A low clock sample makes no START and no rising edge. -/
theorem start_of_low {s : State} (h : s.cur.sclI = false) : start s = false := by simp [start, h]

theorem sclRising_of_low {s : State} (h : s.cur.sclI = false) : sclRising s = false := by simp [sclRising, h]

theorem sclRising_of_same {s : State} (h : s.cur.sclR = s.cur.sclI) : sclRising s = false := by
  cases hs : s.cur.sclI <;> simp [sclRising, h, hs]

theorem start_of_same {s : State} (h : s.cur.sdaR = s.cur.sdaI) : start s = false := by
  cases hs : s.cur.sdaI <;> simp [start, sdaFalling, h, hs]

/-! ## Performing a row -/

theorem performRow_selected {k : EdidState} {s : State} (h : s.cur.state = k) :
    performRow k s = (s.stage stageRow).drive driveRow := if_pos h

theorem performRow_other {k : EdidState} {s : State} (h : s.cur.state ≠ k) : performRow k s = s := if_neg h

theorem performCrcRow_selected {k : CrcState} {s : State} (h : s.cur.cstate = k) :
    performCrcRow k s = (s.stage stageCrcRow).drive driveCrcRow := if_pos h

theorem performCrcRow_other {k : CrcState} {s : State} (h : s.cur.cstate ≠ k) : performCrcRow k s = s := if_neg h

/-- The primed registers a row assigns, each by the rule that defines it. -/
theorem stageRow_eq (s : State) (n : Regs) : stageRow s n =
    { n with
      state := nextState s
      isRead := if (currentRow s).updateIsRead then rxRw s else n.isRead
      offset :=
        if !(currentRow s).ocLoad && (currentRow s).ocInc then s.cur.offset + 1#7
        else if (currentRow s).ocLoad then rxOff s else n.offset
      dataBit := if (currentRow s).dataDrvEn then bitToSend s else n.dataBit
      dataDrv :=
        if (currentRow s).dataDrvEn then true else if (currentRow s).dataDrvStop then false else n.dataDrv } := by
  simp only [stageRow, stageStrobes, stageDrvEn, stageDrvBit, stageOffInc, stageOffLoad, stageDirLatch, stageState]

/-- The primed registers a row of the checker assigns. -/
theorem stageCrcRow_eq (s : State) (n : Regs) : stageCrcRow s n =
    { n with
      cstate := (currentCrcRow s).next
      crcAcc :=
        if (currentCrcRow s).crcReset then crcInit s
        else if (currentCrcRow s).crcCe then crcNext s else n.crcAcc
      buf := bufNext s } := by
  simp only [stageCrcRow, stageBufUpdate, stageEngineAcc, stageCstate]

/-! ## The checker -/

/-- The reset strobes are raised in `RESET` only (44_crc_checker.md R237 to R240). -/
theorem currentCrcRow_crcReset (s : State) : (currentCrcRow s).crcReset = (s.cur.cstate == .reset) := by
  cases h : s.cur.cstate <;> simp [currentCrcRow, h, rowReset, rowIdle, rowCopy]

theorem currentCrcRow_fifoReset (s : State) : (currentCrcRow s).fifoReset = (s.cur.cstate == .reset) := by
  cases h : s.cur.cstate <;> simp [currentCrcRow, h, rowReset, rowIdle, rowCopy]

/-- The accumulator is enabled by an accepted unit that starts a frame or belongs to one. -/
theorem currentCrcRow_crcCe (s : State) : (currentCrcRow s).crcCe =
    ((s.cur.cstate == .idle && s.now.sinkSop && fifoIn s) || (s.cur.cstate == .copy && fifoIn s)) := by
  cases h : s.cur.cstate <;> simp [currentCrcRow, h, rowReset, rowIdle, rowCopy, sinkAck] <;>
    cases hs : s.now.sinkStb <;> simp [fifoIn, hs]

/-- A unit that moves stands at the input. -/
theorem sinkStb_of_fifoIn {s : State} (h : fifoIn s = true) : s.now.sinkStb = true := by
  simp only [fifoIn, Bool.and_eq_true] at h; exact h.1

/-- A pop comes with a push, and from a full buffer. -/
theorem fifoIn_of_fifoOut {s : State} (h : fifoOut s = true) : fifoIn s = true ∧ level s = ratio s := by
  have h' := h
  simp only [fifoOut, sourceStb, fifoFull, Bool.and_eq_true, beq_iff_eq] at h
  exact ⟨by simp [fifoIn, h', h.1.1], h.1.2⟩

/-- The buffer holds at least one entry where a pop meets it (R228). -/
theorem buf_of_fifoOut {s : State} (h : fifoOut s = true) : ∃ e es, s.cur.buf = e :: es := by
  have hl := (fifoIn_of_fifoOut h).2
  cases hb : s.cur.buf with
  | nil =>
    simp only [level, hb, List.length_nil, ratio] at hl
    exact absurd hl.symm (Nat.ne_of_gt (ratio_pos _))
  | cons e es => exact ⟨e, es, rfl⟩

/-- What a commit makes of the buffer (R228): cleared, or left, or with one unit more, or one in and one out. -/
theorem bufNext_cases (s : State) :
    (s.cur.cstate = .reset ∧ bufNext s = []) ∨
    (s.cur.cstate ≠ .reset ∧ fifoIn s = false ∧ fifoOut s = false ∧ bufNext s = s.cur.buf) ∨
    (s.cur.cstate ≠ .reset ∧ fifoIn s = true ∧ fifoOut s = false ∧ fifoFull s = false ∧
      bufNext s = s.cur.buf ++ [sinkEntry s]) ∨
    (s.cur.cstate ≠ .reset ∧ fifoIn s = true ∧ fifoOut s = true ∧
      ∃ e es, s.cur.buf = e :: es ∧ bufNext s = es ++ [sinkEntry s]) := by
  by_cases hr : s.cur.cstate = .reset
  · exact .inl ⟨hr, by simp [bufNext, currentCrcRow_fifoReset, hr]⟩
  have hf : (currentCrcRow s).fifoReset = false := by simp [currentCrcRow_fifoReset, hr]
  cases ho : fifoOut s with
  | true =>
    obtain ⟨e, es, hb⟩ := buf_of_fifoOut ho
    exact .inr (.inr (.inr ⟨hr, (fifoIn_of_fifoOut ho).1, rfl, e, es, hb, by
      simp [bufNext, hf, poppedPushed, popped, (fifoIn_of_fifoOut ho).1, ho, hb]⟩))
  | false =>
    cases hi : fifoIn s with
    | false => exact .inr (.inl ⟨hr, rfl, rfl, by simp [bufNext, hf, poppedPushed, popped, hi, ho]⟩)
    | true =>
      refine .inr (.inr (.inl ⟨hr, rfl, rfl, ?_, by simp [bufNext, hf, poppedPushed, popped, hi, ho]⟩))
      cases hu : fifoFull s with
      | false => rfl
      | true => simp [fifoIn, hu, ho] at hi

/-! ## The event (60_exceptions.md R264, R265) -/

@[simp] theorem eventEntry_evPending (s : State) (n : Regs) : (eventEntry s n).evPending = true := rfl
@[simp] theorem eventEntry_evCaptured (s : State) (n : Regs) : (eventEntry s n).evCaptured = evLine s := rfl
@[simp] theorem eventReturn_evPending (n : Regs) : (eventReturn n).evPending = false := rfl

/-! ## The script -/

@[simp] theorem fetchWord_cons (s : State) (w : OpWord) (ws : List OpWord) (h : s.script = w :: ws) :
    fetchWord s = some (w, { s with script := ws }) := by simp [fetchWord, h]

@[simp] theorem fetchWord_nil (s : State) (h : s.script = []) : fetchWord s = none := by simp [fetchWord, h]

@[simp] theorem loadWord_script (s : State) (w : OpWord) : (loadWord s w).script = [w] := rfl

/-! ## Several ticks -/

theorem ticks_add (j k : Nat) (s : State) : ticks (j + k) s = ticks k (ticks j s) := by
  induction j generalizing s with
  | zero => rw [Nat.zero_add]; rfl
  | succ j ih => rw [Nat.succ_add]; exact ih (tick s)

theorem ticks_succ (k : Nat) (s : State) : ticks (k + 1) s = tick (ticks k s) := ticks_add k 1 s

/-- What every tick keeps, `k` ticks keep. -/
theorem ticks_induct {P : State → Prop} (step : ∀ s, P s → P (tick s)) (k : Nat) {s : State} (h : P s) :
    P (ticks k s) := by
  induction k generalizing s with
  | zero => exact h
  | succ k ih => exact ih (step s h)

@[simp] theorem ticks_mem (k : Nat) (s : State) : (ticks k s).mem = s.mem :=
  ticks_induct (P := fun t => t.mem = s.mem) (fun _ h => h) k rfl

@[simp] theorem ticks_params (k : Nat) (s : State) : (ticks k s).params = s.params :=
  ticks_induct (P := fun t => t.params = s.params) (fun _ h => h) k rfl

/-- The counter runs freely (40_sync_edge.md R112). -/
theorem ticks_sampCount (k : Nat) (s : State) : (ticks k s).cur.sampCount = s.cur.sampCount + BitVec.ofNat 6 k := by
  induction k generalizing s with
  | zero => simp [ticks]
  | succ k ih =>
    rw [ticks, ih (tick s), tick_sampCount, BitVec.add_assoc]
    congr 1
    apply BitVec.eq_of_toNat_eq
    simp [Nat.add_comm]

end Sys2Proof.Machine
end

