-- ==== Sys2Proof/Laws/Bus.lean ====
section
/-! SUPPORT. Laws/Bus.lean: what a quarter of a bit period does to the samples, whatever the sampler's phase
(70_reset_and_hazards.md R290): a line that changes is sampled once, between 2 and 65 ticks later, and everything a rule makes
of the change follows from that tick. The lemmas take the registers of the protocol machine as predicates. -/

namespace Sys2Proof.Machine

open Sys2Proof.Safety

/-! ## One tick under the master's levels -/

theorem busInputs_sclPin (c d : Bool) (s : State) : (busInputs c d s).sclPin = c := rfl
theorem busInputs_sdaPin (c d : Bool) (s : State) : (busInputs c d s).sdaPin = sdaLine d s := rfl

/-- With nothing pending, software neither writes nor clears during a bus operation. -/
theorem busInputs_quiet {c d : Bool} {s : State} (h : s.pending = []) :
    (busInputs c d s).hpdEnWe = false ∧ (busInputs c d s).evClear = false := by simp [busInputs, h]

section BusTick
variable (c d : Bool) (s : State)
theorem busTick_sclS1 : (busTick c d s).cur.sclS1 = c := rfl
theorem busTick_sclS2 : (busTick c d s).cur.sclS2 = s.cur.sclS1 := rfl
theorem busTick_sdaS1 : (busTick c d s).cur.sdaS1 = sdaLine d s := rfl
theorem busTick_sdaS2 : (busTick c d s).cur.sdaS2 = s.cur.sdaS1 := rfl
theorem busTick_sampCount : (busTick c d s).cur.sampCount = s.cur.sampCount + 1#6 := rfl
theorem busTick_sclI : (busTick c d s).cur.sclI = if sampCarry s then s.cur.sclS2 else s.cur.sclI := rfl
theorem busTick_sdaI : (busTick c d s).cur.sdaI = if sampCarry s then s.cur.sdaS2 else s.cur.sdaI := rfl
theorem busTick_sclR : (busTick c d s).cur.sclR = s.cur.sclI := rfl
theorem busTick_sdaR : (busTick c d s).cur.sdaR = s.cur.sdaI := rfl
theorem busTick_counter : (busTick c d s).cur.counter =
    if start s then 0#4
    else if sclRising s then (if byteDone s then 0#4 else s.cur.counter + 1#4) else s.cur.counter := rfl
theorem busTick_din : (busTick c d s).cur.din =
    if !start s && sclRising s && !byteDone s then shiftedIn s else s.cur.din := rfl
theorem busTick_state : (busTick c d s).cur.state = nextState s := rfl
theorem busTick_isRead : (busTick c d s).cur.isRead =
    if (currentRow s).updateIsRead then rxRw s else s.cur.isRead := rfl
theorem busTick_offset : (busTick c d s).cur.offset =
    if !(currentRow s).ocLoad && (currentRow s).ocInc then s.cur.offset + 1#7
    else if (currentRow s).ocLoad then rxOff s else s.cur.offset := rfl
theorem busTick_dataDrv : (busTick c d s).cur.dataDrv =
    if (currentRow s).dataDrvEn then true else if (currentRow s).dataDrvStop then false else s.cur.dataDrv := rfl
theorem busTick_dataBit : (busTick c d s).cur.dataBit =
    if (currentRow s).dataDrvEn then bitToSend s else s.cur.dataBit := rfl
theorem busTick_evLineR : (busTick c d s).cur.evLineR = evLine s := rfl
theorem busTick_evCaptured : (busTick c d s).cur.evCaptured = if evEdge s then evLine s else s.cur.evCaptured := rfl

theorem busTick_hpdEn {s : State} (h : s.pending = []) : (busTick c d s).cur.hpdEn = s.cur.hpdEn := by
  have e : (busTick c d s).cur.hpdEn =
      if (busInputs c d s).hpdEnWe then (busInputs c d s).hpdEnWdata else s.cur.hpdEn := rfl
  rw [e, (busInputs_quiet h).1]; rfl

theorem busTick_evPending {s : State} (h : s.pending = []) :
    (busTick c d s).cur.evPending = if evEdge s then true else s.cur.evPending := by
  have e : (busTick c d s).cur.evPending =
      if evEdge s then true else if (busInputs c d s).evClear then false else s.cur.evPending := rfl
  rw [e, (busInputs_quiet h).2]; rfl

/-- The engine stays enabled. -/
theorem busTick_enabled {s : State} (h : Enabled s) : Enabled (busTick c d s) :=
  ⟨(busTick_hpdEn c d h.2).trans h.1, by rw [busTick_pending, h.2]; rfl⟩
end BusTick

/-! ## A quiet engine -/

/-- Where the event line shows no edge, none is raised. -/
theorem evEdge_of_noEdge {s : State} (h : NoEdge s) : evEdge s = false := by
  rw [evEdge, evLine, h, bne_self_eq_false]

/-- Outside the acknowledge states an engine whose drive latch does not pull leaves the data line to the master. -/
theorem sdaLine_of_notPulling {s : State} (hz : zeroDrv s = false) (hn : NotPulling s) (masterSda : Bool) :
    sdaLine masterSda s = masterSda := by
  cases hd : s.cur.dataDrv with
  | false => simp [sdaLine, sdaOe, hz, hd]
  | true => simp [sdaLine, sdaOe, hz, hd, hn hd]

/-- In an acknowledge state the line is low. -/
theorem sdaLine_of_zeroDrv {s : State} (hz : zeroDrv s = true) (masterSda : Bool) : sdaLine masterSda s = false := by
  simp [sdaLine, sdaOe, hz]

/-! ## Several ticks -/

theorem holdLines_add (j k : Nat) (c d : Bool) (s : State) :
    holdLines (j + k) c d s = holdLines k c d (holdLines j c d s) := by
  induction j generalizing s with
  | zero => rw [Nat.zero_add]; rfl
  | succ j ih => rw [Nat.succ_add]; exact ih (busTick c d s)

theorem holdLines_succ (k : Nat) (c d : Bool) (s : State) :
    holdLines (k + 1) c d s = busTick c d (holdLines k c d s) := holdLines_add k 1 c d s

/-- What every such tick keeps, a hold keeps. -/
theorem holdLines_induct {P : State → Prop} {c d : Bool} (step : ∀ s, P s → P (busTick c d s)) (k : Nat) {s : State}
    (h : P s) : P (holdLines k c d s) := by
  induction k generalizing s with
  | zero => exact h
  | succ k ih => exact ih (step s h)

@[simp] theorem holdLines_mem (k : Nat) (c d : Bool) (s : State) : (holdLines k c d s).mem = s.mem :=
  holdLines_induct (P := fun t => t.mem = s.mem) (fun _ h => h) k rfl
@[simp] theorem holdLines_params (k : Nat) (c d : Bool) (s : State) : (holdLines k c d s).params = s.params :=
  holdLines_induct (P := fun t => t.params = s.params) (fun _ h => h) k rfl
@[simp] theorem holdLines_script (k : Nat) (c d : Bool) (s : State) : (holdLines k c d s).script = s.script :=
  holdLines_induct (P := fun t => t.script = s.script) (fun _ h => h) k rfl
@[simp] theorem holdLines_swResult (k : Nat) (c d : Bool) (s : State) : (holdLines k c d s).swResult = s.swResult :=
  holdLines_induct (P := fun t => t.swResult = s.swResult) (fun _ h => h) k rfl
@[simp] theorem holdLines_masterByte (k : Nat) (c d : Bool) (s : State) :
    (holdLines k c d s).masterByte = s.masterByte :=
  holdLines_induct (P := fun t => t.masterByte = s.masterByte) (fun _ h => h) k rfl
@[simp] theorem holdLines_masterAck (k : Nat) (c d : Bool) (s : State) : (holdLines k c d s).masterAck = s.masterAck :=
  holdLines_induct (P := fun t => t.masterAck = s.masterAck) (fun _ h => h) k rfl

theorem holdLines_enabled (k : Nat) (c d : Bool) {s : State} (h : Enabled s) : Enabled (holdLines k c d s) :=
  holdLines_induct (P := Enabled) (fun _ => busTick_enabled c d) k h

theorem holdLines_tick (k : Nat) (c d : Bool) (s : State) : (holdLines k c d s).tick = s.tick + k := by
  induction k generalizing s with
  | zero => rfl
  | succ k ih => rw [holdLines, ih (busTick c d s), busTick_tick]; omega

theorem holdLines_sampCount (k : Nat) (c d : Bool) (s : State) :
    (holdLines k c d s).cur.sampCount = s.cur.sampCount + BitVec.ofNat 6 k := by
  induction k generalizing s with
  | zero => simp [holdLines]
  | succ k ih =>
    rw [holdLines, ih (busTick c d s), busTick_sampCount, BitVec.add_assoc]
    congr 1
    apply BitVec.eq_of_toNat_eq
    simp [Nat.add_comm]

/-- A quarter keeps the sampler's phase. -/
theorem quarter_sampCount (c d : Bool) (s : State) : (quarter c d s).cur.sampCount = s.cur.sampCount := by
  rw [quarter, holdLines_sampCount]
  show s.cur.sampCount + 0#6 = s.cur.sampCount
  simp

theorem quarter_enabled (c d : Bool) {s : State} (h : Enabled s) : Enabled (quarter c d s) :=
  holdLines_enabled _ c d h

/-- A state unfolded `k` ticks into a hold: the next tick. -/
theorem holdLines_next {P : State → Prop} {k : Nat} {c d : Bool} {s : State}
    (h : P (busTick c d (holdLines k c d s))) : P (holdLines (k + 1) c d s) := by rwa [holdLines_succ]

/-! ## The sampling tick -/

/-- The carry that takes a change: between 2 and 65 ticks after it, and no earlier carry from 2 on
(40_sync_edge.md R122). -/
theorem carry_exists (n : BitVec 6) : ∃ j, 2 ≤ j ∧ j ≤ 65 ∧ n + BitVec.ofNat 6 j = 63#6 ∧
    ∀ i, 2 ≤ i → i < j → n + BitVec.ofNat 6 i ≠ 63#6 := by
  have key : ∀ n : BitVec 6, n + BitVec.ofNat 6 (if 63 - n.toNat < 2 then 127 - n.toNat else 63 - n.toNat) = 63#6 := by
    decide
  refine ⟨if 63 - n.toNat < 2 then 127 - n.toNat else 63 - n.toNat, ?_, ?_, key n, ?_⟩
  · have := n.isLt; split <;> omega
  · have := n.isLt; split <;> omega
  · intro i hi hj e
    have hn := n.isLt
    have := congrArg BitVec.toNat e
    simp only [BitVec.toNat_add, BitVec.toNat_ofNat] at this
    split at hj <;> omega

theorem sampCarry_holdLines {k : Nat} {c d : Bool} {s : State} :
    sampCarry (holdLines k c d s) = (s.cur.sampCount + BitVec.ofNat 6 k == 63#6) := by
  rw [sampCarry, holdLines_sampCount]; rfl

/-- The clock's guard stages during a hold. -/
theorem holdLines_sclS1 (k : Nat) (c d : Bool) (s : State) : (holdLines (k + 1) c d s).cur.sclS1 = c := by
  rw [holdLines_succ, busTick_sclS1]
theorem holdLines_sclS2 (k : Nat) (c d : Bool) (s : State) : (holdLines (k + 2) c d s).cur.sclS2 = c := by
  rw [holdLines_succ, busTick_sclS2, holdLines_sclS1]

/-- Before the sampling tick the clock's samples keep the old level. -/
theorem clock_before {c d : Bool} {s : State} (hc : ClockAt (!c) s) {j : Nat}
    (hj : ∀ i, 2 ≤ i → i < j → s.cur.sampCount + BitVec.ofNat 6 i ≠ 63#6) :
    ∀ k, k ≤ j → (holdLines k c d s).cur.sclI = !c ∧ (holdLines k c d s).cur.sclR = !c := by
  intro k
  induction k with
  | zero => intro _; exact ⟨hc.2.2.1, hc.2.2.2⟩
  | succ k ih =>
    intro hk
    obtain ⟨h1, h2⟩ := ih (by omega)
    refine ⟨?_, by rw [holdLines_succ, busTick_sclR]; exact h1⟩
    rw [holdLines_succ, busTick_sclI]
    split
    · next hcarry =>
      rw [sampCarry_holdLines, beq_iff_eq] at hcarry
      match k, hk with
      | 0, _ => exact hc.2.1
      | 1, _ => rw [holdLines_succ, busTick_sclS2]; exact hc.1
      | k + 2, hk => exact absurd hcarry (hj (k + 2) (by omega) (by omega))
    · exact h1

/-- From the tick after the sampling tick on the sample shows the new level. -/
theorem clock_after {c d : Bool} {s : State} {j : Nat} (h2 : 2 ≤ j)
    (hj : s.cur.sampCount + BitVec.ofNat 6 j = 63#6) : ∀ m, (holdLines (j + 1 + m) c d s).cur.sclI = c := by
  intro m
  induction m with
  | zero =>
    rw [Nat.add_zero, holdLines_succ, busTick_sclI, sampCarry_holdLines, hj]
    obtain ⟨i, rfl⟩ : ∃ i, j = i + 2 := ⟨j - 2, by omega⟩
    simp [holdLines_sclS2]
  | succ m ih =>
    rw [← Nat.add_assoc, holdLines_succ, busTick_sclI]
    split
    · obtain ⟨i, hi⟩ : ∃ i, j + 1 + m = i + 2 := ⟨j + m - 1, by omega⟩
      rw [hi, holdLines_sclS2]
    · exact ih

/-- A quarter in which the clock changes. `P` holds up to the tick in which the sample differs from its previous-tick copy,
`R n` in the `n`-th tick after it; at least 61 ticks follow. -/
theorem quarter_edge {P : State → Prop} {R : Nat → State → Prop} {c d : Bool} {s : State} (hc : ClockAt (!c) s) (hP : P s)
    (before : ∀ s, P s → s.cur.sclI = (!c) → s.cur.sclR = (!c) → P (busTick c d s))
    (pulse : ∀ s, P s → s.cur.sclI = c → s.cur.sclR = (!c) → s.cur.sampCount = 0#6 → R 0 (busTick c d s))
    (after : ∀ n s, R n s → s.cur.sclI = c → s.cur.sclR = c → R (n + 1) (busTick c d s)) :
    ClockAt c (quarter c d s) ∧ ∃ n, 61 ≤ n ∧ R n (quarter c d s) := by
  obtain ⟨j, h2, h65, hj, hmin⟩ := carry_exists s.cur.sampCount
  have hb := clock_before (d := d) hc hmin
  have ha := clock_after (c := c) (d := d) h2 hj
  have hr : ∀ m, (holdLines (j + 2 + m) c d s).cur.sclR = c := by
    intro m
    have e : j + 2 + m = j + 1 + m + 1 := by omega
    rw [e, holdLines_succ, busTick_sclR, ha]
  have p : ∀ k, k ≤ j + 1 → P (holdLines k c d s) := by
    intro k
    induction k with
    | zero => intro _; exact hP
    | succ k ih =>
      intro hk
      have hk' : k ≤ j := by omega
      exact holdLines_next (before _ (ih (by omega)) (hb k hk').1 (hb k hk').2)
  have r : ∀ m, R m (holdLines (j + 2 + m) c d s) := by
    intro m
    induction m with
    | zero =>
      refine holdLines_next (pulse _ (p (j + 1) (Nat.le_refl _)) (ha 0) ?_ ?_)
      · rw [holdLines_succ, busTick_sclR]; exact (hb j (Nat.le_refl _)).1
      · have e : BitVec.ofNat 6 (j + 1) = BitVec.ofNat 6 j + 1#6 := by
          apply BitVec.eq_of_toNat_eq; simp
        rw [holdLines_sampCount, e, ← BitVec.add_assoc, hj]; rfl
    | succ m ih =>
      have e : j + 2 + (m + 1) = j + 2 + m + 1 := by omega
      rw [e]
      refine holdLines_next (after m _ ih ?_ (hr m))
      have e' : j + 2 + m = j + 1 + (m + 1) := by omega
      rw [e']; exact ha (m + 1)
  have e : Config.quarter = j + 2 + (126 - j) := by simp only [Config.quarter]; omega
  refine ⟨⟨?_, ?_, ?_, ?_⟩, 126 - j, by omega, ?_⟩
  · exact holdLines_sclS1 127 c d s
  · exact holdLines_sclS2 126 c d s
  · have e' : Config.quarter = j + 1 + (127 - j) := by simp only [Config.quarter]; omega
    rw [quarter, e']; exact ha _
  · rw [quarter, e]; exact hr _
  · rw [quarter, e]; exact r _

/-- A hold in which the clock does not change. -/
theorem holdLines_still {P : State → Prop} {c d : Bool} (k : Nat) {s : State} (hc : ClockAt c s) (hP : P s)
    (step : ∀ s, P s → s.cur.sclI = c → s.cur.sclR = c → P (busTick c d s)) :
    ClockAt c (holdLines k c d s) ∧ P (holdLines k c d s) := by
  induction k generalizing s with
  | zero => exact ⟨hc, hP⟩
  | succ k ih =>
    refine ih ⟨rfl, hc.1, ?_, hc.2.2.1⟩ (step s hP hc.2.2.1 hc.2.2.2)
    rw [busTick_sclI]
    split
    · exact hc.2.1
    · exact hc.2.2.1

/-- A quarter in which neither line changes, as far as the clock is concerned. -/
theorem quarter_still {P : State → Prop} {c d : Bool} {s : State} (hc : ClockAt c s) (hP : P s)
    (step : ∀ s, P s → s.cur.sclI = c → s.cur.sclR = c → P (busTick c d s)) :
    ClockAt c (quarter c d s) ∧ P (quarter c d s) := holdLines_still Config.quarter hc hP step

/-! ## The data line -/

/-- The data's guard stages, while the line carries `v`. -/
theorem holdLines_sdaS1 {c d v : Bool} {s : State} {k : Nat} (hv : sdaLine d (holdLines k c d s) = v) :
    (holdLines (k + 1) c d s).cur.sdaS1 = v := by rw [holdLines_succ, busTick_sdaS1, hv]
theorem holdLines_sdaS2 {c d v : Bool} {s : State} {k : Nat} (hv : sdaLine d (holdLines k c d s) = v) :
    (holdLines (k + 2) c d s).cur.sdaS2 = v := by rw [holdLines_succ, busTick_sdaS2, holdLines_sdaS1 hv]

theorem data_after {c d v : Bool} {s : State} {j : Nat} (h2 : 2 ≤ j)
    (hv : ∀ k, k < Config.quarter → sdaLine d (holdLines k c d s) = v)
    (hj : s.cur.sampCount + BitVec.ofNat 6 j = 63#6) :
    ∀ m, j + 1 + m ≤ Config.quarter → (holdLines (j + 1 + m) c d s).cur.sdaI = v := by
  intro m
  induction m with
  | zero =>
    intro hm
    rw [Nat.add_zero, holdLines_succ, busTick_sdaI, sampCarry_holdLines, hj]
    obtain ⟨i, rfl⟩ : ∃ i, j = i + 2 := ⟨j - 2, by omega⟩
    simp [holdLines_sdaS2 (hv i (by omega))]
  | succ m ih =>
    intro hm
    rw [← Nat.add_assoc, holdLines_succ, busTick_sdaI]
    split
    · obtain ⟨i, hi⟩ : ∃ i, j + 1 + m = i + 2 := ⟨j + m - 1, by omega⟩
      rw [hi, holdLines_sdaS2 (hv i (by omega))]
    · exact ih (by omega)

theorem data_before {c d v : Bool} {s : State} (hd : DataAt (!v) s) {j : Nat}
    (hj : ∀ i, 2 ≤ i → i < j → s.cur.sampCount + BitVec.ofNat 6 i ≠ 63#6) :
    ∀ k, k ≤ j → (holdLines k c d s).cur.sdaI = !v ∧ (holdLines k c d s).cur.sdaR = !v := by
  intro k
  induction k with
  | zero => intro _; exact ⟨hd.2.2.1, hd.2.2.2⟩
  | succ k ih =>
    intro hk
    obtain ⟨h1, h2⟩ := ih (by omega)
    refine ⟨?_, by rw [holdLines_succ, busTick_sdaR]; exact h1⟩
    rw [holdLines_succ, busTick_sdaI]
    split
    · next hcarry =>
      rw [sampCarry_holdLines, beq_iff_eq] at hcarry
      match k, hk with
      | 0, _ => exact hd.2.1
      | 1, _ => rw [holdLines_succ, busTick_sdaS2]; exact hd.1
      | k + 2, hk => exact absurd hcarry (hj (k + 2) (by omega) (by omega))
    · exact h1

/-- A quarter during which the line carries `v` leaves every stage and sample of the data line at `v`. -/
theorem quarter_data {c d v : Bool} {s : State}
    (hv : ∀ k, k < Config.quarter → sdaLine d (holdLines k c d s) = v) : DataAt v (quarter c d s) := by
  obtain ⟨j, h2, h65, hj, -⟩ := carry_exists s.cur.sampCount
  have ha := data_after h2 hv hj
  refine ⟨holdLines_sdaS1 (k := 127) (hv 127 (by decide)), holdLines_sdaS2 (k := 126) (hv 126 (by decide)), ?_, ?_⟩
  · have e : Config.quarter = j + 1 + (127 - j) := by simp only [Config.quarter]; omega
    rw [quarter, e]; exact ha _ (by omega)
  · have e : Config.quarter = j + 1 + (126 - j) + 1 := by simp only [Config.quarter]; omega
    rw [quarter, e, holdLines_succ, busTick_sdaR]; exact ha _ (by omega)

/-- A quarter in which the clock stands still and the data line goes from `!v` to `v`. -/
theorem quarter_data_edge {P : State → Prop} {R : Nat → State → Prop} {c d v : Bool} {s : State} (hc : ClockAt c s) (hd : DataAt (!v) s)
    (hv : ∀ k, k < Config.quarter → sdaLine d (holdLines k c d s) = v) (hP : P s)
    (before : ∀ s, P s → ClockAt c s → s.cur.sdaI = (!v) → s.cur.sdaR = (!v) → P (busTick c d s))
    (pulse : ∀ s, P s → ClockAt c s → s.cur.sdaI = v → s.cur.sdaR = (!v) → R 0 (busTick c d s))
    (after : ∀ n s, R n s → ClockAt c s → s.cur.sdaI = v → s.cur.sdaR = v → R (n + 1) (busTick c d s)) :
    ClockAt c (quarter c d s) ∧ DataAt v (quarter c d s) ∧ ∃ n, 61 ≤ n ∧ R n (quarter c d s) := by
  obtain ⟨j, h2, h65, hj, hmin⟩ := carry_exists s.cur.sampCount
  have hb := data_before (c := c) (d := d) hd hmin
  have ha := data_after h2 hv hj
  have hk : ∀ k, ClockAt c (holdLines k c d s) := fun k =>
    (holdLines_still (P := fun _ => True) k hc trivial fun _ _ _ _ => trivial).1
  have hr : ∀ m, j + 2 + m ≤ Config.quarter → (holdLines (j + 2 + m) c d s).cur.sdaR = v := by
    intro m hm
    have e : j + 2 + m = j + 1 + m + 1 := by omega
    rw [e, holdLines_succ, busTick_sdaR, ha _ (by omega)]
  have p : ∀ k, k ≤ j + 1 → P (holdLines k c d s) := by
    intro k
    induction k with
    | zero => intro _; exact hP
    | succ k ih =>
      intro hkj
      have hk' : k ≤ j := by omega
      exact holdLines_next (before _ (ih (by omega)) (hk k) (hb k hk').1 (hb k hk').2)
  have r : ∀ m, j + 2 + m ≤ Config.quarter → R m (holdLines (j + 2 + m) c d s) := by
    intro m
    induction m with
    | zero =>
      intro _
      refine holdLines_next (pulse _ (p (j + 1) (Nat.le_refl _)) (hk _) (ha 0 (by simp only [Config.quarter]; omega)) ?_)
      rw [holdLines_succ, busTick_sdaR]; exact (hb j (Nat.le_refl _)).1
    | succ m ih =>
      intro hm
      have e : j + 2 + (m + 1) = j + 2 + m + 1 := by omega
      rw [e]
      refine holdLines_next (after m _ (ih (by omega)) (hk _) ?_ (hr m (by omega)))
      have e' : j + 2 + m = j + 1 + (m + 1) := by omega
      rw [e']; exact ha (m + 1) (by omega)
  have e : Config.quarter = j + 2 + (126 - j) := by simp only [Config.quarter]; omega
  refine ⟨hk _, quarter_data hv, 126 - j, by omega, ?_⟩
  rw [quarter, e]; exact r _ (by omega)

/-! ## Whole bus operations keep what every tick keeps -/

theorem sendBit_induct {P : State → Prop} (step : ∀ c d s, P s → P (busTick c d s)) (b : Bool) {s : State} (h : P s) :
    P (sendBit b s) :=
  holdLines_induct (step _ _) _ (holdLines_induct (step _ _) _
    (holdLines_induct (step _ _) _ (holdLines_induct (step _ _) _ h)))

theorem sendBits_induct {P : State → Prop} (step : ∀ c d s, P s → P (busTick c d s)) (bs : List Bool) {s : State}
    (h : P s) : P (sendBits bs s) := by
  induction bs generalizing s with
  | nil => exact h
  | cons b bs ih => exact ih (sendBit_induct step b h)

theorem readPoint_induct {P : State → Prop} (step : ∀ c d s, P s → P (busTick c d s)) {s : State} (h : P s) :
    P (readPoint s) := holdLines_induct (step _ _) _ (holdLines_induct (step _ _) _ h)

theorem afterRead_induct {P : State → Prop} (step : ∀ c d s, P s → P (busTick c d s)) {s : State} (h : P s) :
    P (afterRead s) := holdLines_induct (step _ _) _ (holdLines_induct (step _ _) _ h)

end Sys2Proof.Machine
end

