-- ==== Sys2Proof/Laws/Decode.lean ====
section
/-! SUPPORT. Laws/Decode.lean: the fields of a word that was put together from fields, and the fields of the bytes of a frame. -/

namespace Sys2Proof.Laws

/-! ## The fields of a word -/

theorem opWord_formatCode (f : BitVec 4) (k : BitVec 8) (p : BitVec 9) : (opWord f k p).formatCode = f := by
  apply BitVec.eq_of_getLsbD_eq
  intro i hi
  simp only [opWord, OpWord.formatCode, BitVec.getLsbD_extractLsb', BitVec.getLsbD_append]
  match i, hi with
  | 0, _ => simp
  | 1, _ => simp
  | 2, _ => simp
  | 3, _ => simp

theorem opWord_selector (f : BitVec 4) (k : BitVec 8) (p : BitVec 9) : (opWord f k p).selector = k := by
  apply BitVec.eq_of_getLsbD_eq
  intro i hi
  simp only [opWord, OpWord.selector, BitVec.getLsbD_extractLsb', BitVec.getLsbD_append]
  match i, hi with
  | 0, _ => simp
  | 1, _ => simp
  | 2, _ => simp
  | 3, _ => simp
  | 4, _ => simp
  | 5, _ => simp
  | 6, _ => simp
  | 7, _ => simp

theorem opWord_pattern (f : BitVec 4) (k : BitVec 8) (p : BitVec 9) : (opWord f k p).pattern = p := by
  apply BitVec.eq_of_getLsbD_eq
  intro i hi
  simp only [opWord, OpWord.pattern, BitVec.getLsbD_extractLsb', BitVec.getLsbD_append]
  simp [hi]

theorem opWord_reservedClear (f : BitVec 4) (k : BitVec 8) (p : BitVec 9) : (opWord f k p).reservedClear = true := by
  simp only [OpWord.reservedClear, Bool.and_eq_true, beq_iff_eq]
  constructor
  · apply BitVec.eq_of_getLsbD_eq
    intro i hi
    simp only [opWord, BitVec.getLsbD_extractLsb', BitVec.getLsbD_append]
    match i, hi with
    | 0, _ => simp
    | 1, _ => simp
    | 2, _ => simp
    | 3, _ => simp
    | 4, _ => simp
    | 5, _ => simp
    | 6, _ => simp
  · apply BitVec.eq_of_getLsbD_eq
    intro i hi
    simp only [opWord, BitVec.getLsbD_extractLsb', BitVec.getLsbD_append]
    match i, hi with
    | 0, _ => simp
    | 1, _ => simp
    | 2, _ => simp
    | 3, _ => simp

/-- What the decoder makes of a word put together from fields: the format chooses the table. -/
theorem decode_opWord (f : BitVec 4) (k : BitVec 8) (p : BitVec 9) : decode (opWord f k p) =
    match f.toNat with
    | 0 => decodeI2cByte k.toNat (opWord f k p).byte (opWord f k p).ack
    | 1 => decodeI2cCond k.toNat p.toNat
    | 2 => decodeState k.toNat p.toNat
    | 3 => decodeTick k.toNat p.toNat
    | 4 => decodeCsr k.toNat (opWord f k p).byte (opWord f k p).ack
    | 5 => decodeStream k.toNat p.toNat
    | _ => .error .unknownFormat := by
  simp only [decode, opWord_formatCode, opWord_selector, opWord_pattern, opWord_reservedClear, if_true]
    <;> rfl

/-! ## The bytes of a frame -/

/-- The byte bits and the ninth bit of a pattern (30_encoding.md R88). -/
theorem opWord_byte (f : BitVec 4) (k : BitVec 8) (ack : Bool) (byte : Byte) :
    (opWord f k (BitVec.cons ack byte)).byte = byte := by
  have h : (opWord f k (BitVec.cons ack byte)).byte = ((opWord f k (BitVec.cons ack byte)).pattern).extractLsb' 0 8 := by
    apply BitVec.eq_of_getLsbD_eq
    intro i hi
    simp only [OpWord.byte, OpWord.pattern, BitVec.getLsbD_extractLsb']
    simp [hi, Nat.lt_succ_of_lt hi]
  rw [h, opWord_pattern]
  apply BitVec.eq_of_getLsbD_eq
  intro i hi
  simp only [BitVec.getLsbD_extractLsb', BitVec.getLsbD_cons]
  have : ¬ i = 8 := by omega
  simp [hi, this]

theorem opWord_ack (f : BitVec 4) (k : BitVec 8) (ack : Bool) (byte : Byte) :
    (opWord f k (BitVec.cons ack byte)).ack = ack := by
  have h : (opWord f k (BitVec.cons ack byte)).ack = ((opWord f k (BitVec.cons ack byte)).pattern).getLsbD 8 := by
    simp [OpWord.ack, OpWord.pattern]
  rw [h, opWord_pattern, BitVec.getLsbD_cons]
  simp

/-- The address and the direction come back out of an address byte (R89). -/
theorem addressByte_addr (addr : BitVec 7) (rw : Bool) : (addressByte addr rw).extractLsb' 1 7 = addr := by
  apply BitVec.eq_of_getLsbD_eq
  intro i hi
  simp only [addressByte, BitVec.getLsbD_extractLsb', BitVec.getLsbD_concat]
  simp [hi]

theorem addressByte_rw (addr : BitVec 7) (rw : Bool) : (addressByte addr rw).getLsbD 0 = rw := by
  simp [addressByte]

/-- The offset and the ignored bit come back out of an offset byte (R90). -/
theorem offsetByte_off (ignored : Bool) (off : BitVec 7) : (offsetByte ignored off).extractLsb' 0 7 = off := by
  apply BitVec.eq_of_getLsbD_eq
  intro i hi
  simp only [offsetByte, BitVec.getLsbD_extractLsb', BitVec.getLsbD_cons]
  have : ¬ i = 7 := by omega
  simp [hi, this]

theorem offsetByte_ignored (ignored : Bool) (off : BitVec 7) : (offsetByte ignored off).getLsbD 7 = ignored := by
  rw [offsetByte, BitVec.getLsbD_cons, if_pos rfl]

end Sys2Proof.Laws
end

