-- ==== Sys2Proof/Laws/PerInstr.lean ====
section
/-! SUPPORT. Laws/PerInstr.lean: the families of statements made per operation. `FormatOfWord`: the word of an operation carries the
format, the selector and the pattern of its row in their fields, and nothing else. -/

namespace Sys2Proof.Laws

/-! ## The family -/

/-- The word of an operation says its row's format, selector and pattern, and sets no other bit. -/
def FormatOfWord.Statement (i : Instr) : Prop :=
  (encode i).formatCode = i.format.code ∧ (encode i).selector = i.selector ∧ (encode i).pattern = i.pattern ∧
    (encode i).reservedClear = true

/-- The shared step of the family's lemmas. -/
theorem formatOfWord_statement (i : Instr) : FormatOfWord.Statement i :=
  ⟨opWord_formatCode _ _ _, opWord_selector _ _ _, opWord_pattern _ _ _, opWord_reservedClear _ _ _⟩

theorem FormatOfWord.syncScl : FormatOfWord.Statement .syncScl := formatOfWord_statement _
theorem FormatOfWord.syncSda : FormatOfWord.Statement .syncSda := formatOfWord_statement _
theorem FormatOfWord.sampCount : FormatOfWord.Statement .sampCount := formatOfWord_statement _
theorem FormatOfWord.sampLatch : FormatOfWord.Statement .sampLatch := formatOfWord_statement _
theorem FormatOfWord.edgePrevScl : FormatOfWord.Statement .edgePrevScl := formatOfWord_statement _
theorem FormatOfWord.edgePrevSda : FormatOfWord.Statement .edgePrevSda := formatOfWord_statement _
theorem FormatOfWord.edgeSclRising : FormatOfWord.Statement .edgeSclRising := formatOfWord_statement _
theorem FormatOfWord.edgeSdaRising : FormatOfWord.Statement .edgeSdaRising := formatOfWord_statement _
theorem FormatOfWord.edgeSdaFalling : FormatOfWord.Statement .edgeSdaFalling := formatOfWord_statement _
theorem FormatOfWord.edgeStart : FormatOfWord.Statement .edgeStart := formatOfWord_statement _
theorem FormatOfWord.bitCount : FormatOfWord.Statement .bitCount := formatOfWord_statement _
theorem FormatOfWord.bitShift : FormatOfWord.Statement .bitShift := formatOfWord_statement _
theorem FormatOfWord.dirLatch : FormatOfWord.Statement .dirLatch := formatOfWord_statement _
theorem FormatOfWord.offLoad : FormatOfWord.Statement .offLoad := formatOfWord_statement _
theorem FormatOfWord.offInc : FormatOfWord.Statement .offInc := formatOfWord_statement _
theorem FormatOfWord.drvBit : FormatOfWord.Statement .drvBit := formatOfWord_statement _
theorem FormatOfWord.drvEn : FormatOfWord.Statement .drvEn := formatOfWord_statement _
theorem FormatOfWord.drvSdaO : FormatOfWord.Statement .drvSdaO := formatOfWord_statement _
theorem FormatOfWord.drvSdaOe : FormatOfWord.Statement .drvSdaOe := formatOfWord_statement _
theorem FormatOfWord.ovrHpd : FormatOfWord.Statement .ovrHpd := formatOfWord_statement _
theorem FormatOfWord.ovrStart : FormatOfWord.Statement .ovrStart := formatOfWord_statement _
theorem FormatOfWord.stWaitStart : FormatOfWord.Statement .stWaitStart := formatOfWord_statement _
theorem FormatOfWord.stRcvAddress : FormatOfWord.Statement .stRcvAddress := formatOfWord_statement _
theorem FormatOfWord.stAckAddress0 : FormatOfWord.Statement .stAckAddress0 := formatOfWord_statement _
theorem FormatOfWord.stAckAddress1 : FormatOfWord.Statement .stAckAddress1 := formatOfWord_statement _
theorem FormatOfWord.stAckAddress2 : FormatOfWord.Statement .stAckAddress2 := formatOfWord_statement _
theorem FormatOfWord.stRcvOffset : FormatOfWord.Statement .stRcvOffset := formatOfWord_statement _
theorem FormatOfWord.stAckOffset0 : FormatOfWord.Statement .stAckOffset0 := formatOfWord_statement _
theorem FormatOfWord.stAckOffset1 : FormatOfWord.Statement .stAckOffset1 := formatOfWord_statement _
theorem FormatOfWord.stAckOffset2 : FormatOfWord.Statement .stAckOffset2 := formatOfWord_statement _
theorem FormatOfWord.stRead : FormatOfWord.Statement .stRead := formatOfWord_statement _
theorem FormatOfWord.stAckRead : FormatOfWord.Statement .stAckRead := formatOfWord_statement _
theorem FormatOfWord.busStart (repeated : Bool) : FormatOfWord.Statement (.busStart repeated) :=
  formatOfWord_statement _
theorem FormatOfWord.busAddrW : FormatOfWord.Statement .busAddrW := formatOfWord_statement _
theorem FormatOfWord.busAddrR : FormatOfWord.Statement .busAddrR := formatOfWord_statement _
theorem FormatOfWord.busAddrMiss (addr : BitVec 7) (rw : Bool) : FormatOfWord.Statement (.busAddrMiss addr rw) :=
  formatOfWord_statement _
theorem FormatOfWord.busOffset (ignored : Bool) (off : BitVec 7) : FormatOfWord.Statement (.busOffset ignored off) :=
  formatOfWord_statement _
theorem FormatOfWord.busRdbyte : FormatOfWord.Statement .busRdbyte := formatOfWord_statement _
theorem FormatOfWord.busMack : FormatOfWord.Statement .busMack := formatOfWord_statement _
theorem FormatOfWord.busMnack : FormatOfWord.Statement .busMnack := formatOfWord_statement _
theorem FormatOfWord.busStop : FormatOfWord.Statement .busStop := formatOfWord_statement _
theorem FormatOfWord.hpdSync : FormatOfWord.Statement .hpdSync := formatOfWord_statement _
theorem FormatOfWord.csrRdHpdNotif : FormatOfWord.Statement .csrRdHpdNotif := formatOfWord_statement _
theorem FormatOfWord.csrWrHpdEn (data : BitVec 8) : FormatOfWord.Statement (.csrWrHpdEn data) :=
  formatOfWord_statement _
theorem FormatOfWord.csrRdHpdEn : FormatOfWord.Statement .csrRdHpdEn := formatOfWord_statement _
theorem FormatOfWord.hpdPin : FormatOfWord.Statement .hpdPin := formatOfWord_statement _
theorem FormatOfWord.evLine : FormatOfWord.Statement .evLine := formatOfWord_statement _
theorem FormatOfWord.evEdge : FormatOfWord.Statement .evEdge := formatOfWord_statement _
theorem FormatOfWord.evPrev : FormatOfWord.Statement .evPrev := formatOfWord_statement _
theorem FormatOfWord.evPending : FormatOfWord.Statement .evPending := formatOfWord_statement _
theorem FormatOfWord.evCapture : FormatOfWord.Statement .evCapture := formatOfWord_statement _
theorem FormatOfWord.csrRdEvStatus : FormatOfWord.Statement .csrRdEvStatus := formatOfWord_statement _
theorem FormatOfWord.evIrq : FormatOfWord.Statement .evIrq := formatOfWord_statement _
theorem FormatOfWord.csrRdEvPending : FormatOfWord.Statement .csrRdEvPending := formatOfWord_statement _
theorem FormatOfWord.csrRdEvCaptured : FormatOfWord.Statement .csrRdEvCaptured := formatOfWord_statement _
theorem FormatOfWord.dbgTaps : FormatOfWord.Statement .dbgTaps := formatOfWord_statement _
theorem FormatOfWord.csrClrEv : FormatOfWord.Statement .csrClrEv := formatOfWord_statement _
theorem FormatOfWord.crcFull : FormatOfWord.Statement .crcFull := formatOfWord_statement _
theorem FormatOfWord.crcSrcStb : FormatOfWord.Statement .crcSrcStb := formatOfWord_statement _
theorem FormatOfWord.crcFifoOut : FormatOfWord.Statement .crcFifoOut := formatOfWord_statement _
theorem FormatOfWord.crcFifoIn : FormatOfWord.Statement .crcFifoIn := formatOfWord_statement _
theorem FormatOfWord.crcSinkAck : FormatOfWord.Statement .crcSinkAck := formatOfWord_statement _
theorem FormatOfWord.crcSrcPayload : FormatOfWord.Statement .crcSrcPayload := formatOfWord_statement _
theorem FormatOfWord.crcSrcEop : FormatOfWord.Statement .crcSrcEop := formatOfWord_statement _
theorem FormatOfWord.crcBufUpdate : FormatOfWord.Statement .crcBufUpdate := formatOfWord_statement _
theorem FormatOfWord.crcEngineNext : FormatOfWord.Statement .crcEngineNext := formatOfWord_statement _
theorem FormatOfWord.crcEngineAcc : FormatOfWord.Statement .crcEngineAcc := formatOfWord_statement _
theorem FormatOfWord.crcSrcError : FormatOfWord.Statement .crcSrcError := formatOfWord_statement _
theorem FormatOfWord.crcBusy : FormatOfWord.Statement .crcBusy := formatOfWord_statement _
theorem FormatOfWord.cstReset : FormatOfWord.Statement .cstReset := formatOfWord_statement _
theorem FormatOfWord.cstIdle : FormatOfWord.Statement .cstIdle := formatOfWord_statement _
theorem FormatOfWord.cstCopy : FormatOfWord.Statement .cstCopy := formatOfWord_statement _

end Sys2Proof.Laws
end

