-- ==== Sys2Proof/Tests/Slice0.lean ====
section
/-! SUPPORT. Tests/Slice0.lean: the model against words and numbers written out from the spec (the vectors of
95_test_vectors.md and the encodings of 30_encoding.md), and, for every statement with hypotheses, a state and operands that meet
them. -/

namespace Sys2Proof.Tests

open Sys2Proof.Machine Sys2Proof.Safety

/-! ## WellFormed: the one check refuses what it is for -/

theorem test_wellFormed_refuses_own_address : Instr.wellFormed (.busAddrMiss 0x50#7 false) = false := by decide
theorem test_wellFormed_takes_other_address : Instr.wellFormed (.busAddrMiss 0x51#7 true) = true := by decide

/-! ## Decode: a word for every operation, from the pattern of its row

Written as selector (bits 27..20), format (bits 19..16), pattern (bits 8..0), see Decode.lean. -/

/-- The I2C_BYTE patterns of 30_encoding.md R89 to R93. -/
theorem test_decode_bytes :
    decode (opWord 0#4 0#8 0b0_1010_0000#9) = .ok .busAddrW ∧
    decode (opWord 0#4 0#8 0b0_1010_0001#9) = .ok .busAddrR ∧
    decode (opWord 0#4 0#8 0b1_1010_0010#9) = .ok (.busAddrMiss 0x51#7 false) ∧
    decode (opWord 0#4 0#8 0b1_0000_0001#9) = .ok (.busAddrMiss 0x00#7 true) ∧
    decode (opWord 0#4 1#8 0b0_0111_1111#9) = .ok (.busOffset false 127#7) ∧
    decode (opWord 0#4 1#8 0b0_1000_0000#9) = .ok (.busOffset true 0#7) ∧
    decode (opWord 0#4 2#8 0b0_0111_1100#9) = .ok .busRdbyte ∧
    decode (opWord 0#4 3#8 0b0_0000_0000#9) = .ok .busMack ∧
    decode (opWord 0#4 3#8 0b1_0000_0000#9) = .ok .busMnack := by decide

/-- The I2C_COND patterns: `0 1 - -`, `- - 0 1`, `- - 1 0`, `- 1 1 0` (R117 to R120), `- 1 1 0` and `- 1 0 1` on the bus. -/
theorem test_decode_conditions :
    decode (opWord 1#4 0#8 0b0_1100_0100#9) = .ok .edgeSclRising ∧
    decode (opWord 1#4 0#8 0b0_0011_0001#9) = .ok .edgeSdaRising ∧
    decode (opWord 1#4 0#8 0b0_0011_0010#9) = .ok .edgeSdaFalling ∧
    decode (opWord 1#4 0#8 0b0_0111_0110#9) = .ok .edgeStart ∧
    decode (opWord 1#4 1#8 0b0_0111_0110#9) = .ok (.busStart false) ∧
    decode (opWord 1#4 2#8 0b0_0111_0110#9) = .ok (.busStart true) ∧
    decode (opWord 1#4 1#8 0b0_0111_0101#9) = .ok .busStop := by decide

/-- The states in the order of 10_state.md R33. -/
theorem test_decode_states :
    decode (opWord 2#4 0#8 0#9) = .ok .stWaitStart ∧ decode (opWord 2#4 0#8 1#9) = .ok .stRcvAddress ∧
    decode (opWord 2#4 0#8 2#9) = .ok .stAckAddress0 ∧ decode (opWord 2#4 0#8 3#9) = .ok .stAckAddress1 ∧
    decode (opWord 2#4 0#8 4#9) = .ok .stAckAddress2 ∧ decode (opWord 2#4 0#8 5#9) = .ok .stRcvOffset ∧
    decode (opWord 2#4 0#8 6#9) = .ok .stAckOffset0 ∧ decode (opWord 2#4 0#8 7#9) = .ok .stAckOffset1 ∧
    decode (opWord 2#4 0#8 8#9) = .ok .stAckOffset2 ∧ decode (opWord 2#4 0#8 9#9) = .ok .stRead ∧
    decode (opWord 2#4 0#8 10#9) = .ok .stAckRead := by decide

/-- The overrides and the datapath writes the states command. -/
theorem test_decode_strobes :
    decode (opWord 2#4 1#8 15#9) = .ok .ovrHpd ∧ decode (opWord 2#4 2#8 15#9) = .ok .ovrStart ∧
    decode (opWord 2#4 3#8 1#9) = .ok .dirLatch ∧ decode (opWord 2#4 3#8 5#9) = .ok .offLoad ∧
    decode (opWord 2#4 3#8 10#9) = .ok .offInc ∧ decode (opWord 2#4 3#8 9#9) = .ok .drvBit ∧
    decode (opWord 2#4 4#8 9#9) = .ok .drvEn := by decide

/-- The TICK rows of the EDID engine, in the table's order, with the empty pattern. -/
theorem test_decode_tick_edid :
    decode (opWord 3#4 0#8 0#9) = .ok .syncScl ∧ decode (opWord 3#4 1#8 0#9) = .ok .syncSda ∧
    decode (opWord 3#4 2#8 0#9) = .ok .sampCount ∧ decode (opWord 3#4 3#8 0#9) = .ok .sampLatch ∧
    decode (opWord 3#4 4#8 0#9) = .ok .edgePrevScl ∧ decode (opWord 3#4 5#8 0#9) = .ok .edgePrevSda ∧
    decode (opWord 3#4 6#8 0#9) = .ok .bitCount ∧ decode (opWord 3#4 7#8 0#9) = .ok .bitShift ∧
    decode (opWord 3#4 8#8 0#9) = .ok .drvSdaO ∧ decode (opWord 3#4 9#8 0#9) = .ok .drvSdaOe ∧
    decode (opWord 3#4 10#8 0#9) = .ok .hpdSync ∧ decode (opWord 3#4 11#8 0#9) = .ok .hpdPin ∧
    decode (opWord 3#4 12#8 0#9) = .ok .evLine ∧ decode (opWord 3#4 13#8 0#9) = .ok .evEdge ∧
    decode (opWord 3#4 14#8 0#9) = .ok .evPrev ∧ decode (opWord 3#4 15#8 0#9) = .ok .evPending ∧
    decode (opWord 3#4 16#8 0#9) = .ok .evCapture ∧ decode (opWord 3#4 17#8 0#9) = .ok .evIrq ∧
    decode (opWord 3#4 18#8 0#9) = .ok .dbgTaps := by decide

/-- The TICK rows of the checker. -/
theorem test_decode_tick_crc :
    decode (opWord 3#4 19#8 0#9) = .ok .crcFull ∧ decode (opWord 3#4 20#8 0#9) = .ok .crcSrcStb ∧
    decode (opWord 3#4 21#8 0#9) = .ok .crcFifoOut ∧ decode (opWord 3#4 22#8 0#9) = .ok .crcFifoIn ∧
    decode (opWord 3#4 23#8 0#9) = .ok .crcSinkAck ∧ decode (opWord 3#4 24#8 0#9) = .ok .crcSrcPayload ∧
    decode (opWord 3#4 25#8 0#9) = .ok .crcSrcEop ∧ decode (opWord 3#4 26#8 0#9) = .ok .crcBufUpdate ∧
    decode (opWord 3#4 27#8 0#9) = .ok .crcEngineNext ∧ decode (opWord 3#4 28#8 0#9) = .ok .crcEngineAcc ∧
    decode (opWord 3#4 29#8 0#9) = .ok .crcSrcError ∧ decode (opWord 3#4 30#8 0#9) = .ok .crcBusy := by decide

/-- The register accesses, in the order of 10_state.md R52, and the checker's rows. -/
theorem test_decode_csr_stream :
    decode (opWord 4#4 0#8 0#9) = .ok .csrRdHpdNotif ∧ decode (opWord 4#4 4#8 0#9) = .ok .csrRdHpdEn ∧
    decode (opWord 4#4 5#8 0b0_1111_1110#9) = .ok (.csrWrHpdEn 0xFE#8) ∧
    decode (opWord 4#4 8#8 0#9) = .ok .csrRdEvStatus ∧ decode (opWord 4#4 12#8 0#9) = .ok .csrRdEvPending ∧
    decode (opWord 4#4 14#8 0#9) = .ok .csrClrEv ∧ decode (opWord 4#4 16#8 0#9) = .ok .csrRdEvCaptured ∧
    decode (opWord 5#4 0#8 0#9) = .ok .cstReset ∧ decode (opWord 5#4 0#8 1#9) = .ok .cstIdle ∧
    decode (opWord 5#4 0#8 2#9) = .ok .cstCopy := by decide

/-- Words that encode nothing are refused by name. -/
theorem test_decode_refuses :
    decode 0x00000200#32 = .error .reservedBits ∧ decode 0x00060000#32 = .error .unknownFormat ∧
    decode (opWord 3#4 31#8 0#9) = .error .unknownSelector ∧ decode (opWord 2#4 0#8 11#9) = .error .unknownPattern ∧
    decode (opWord 0#4 0#8 0b1_1010_0000#9) = .error .addressAcknowledge ∧
    decode (opWord 0#4 0#8 0b0_1010_0010#9) = .error .addressAcknowledge ∧
    decode (opWord 0#4 1#8 0b1_0000_0000#9) = .error .offsetNotAcknowledged := by decide

/-- The host's numbering: `A1 a` in nine bits rounded to two bytes. -/
theorem test_decodeTableWord : decodeTableWord 16 0x0A1 = some .busAddrR := by decide

/-! ## A small state -/

/-- The lines high, nothing offered. -/
def quietInputs : Inputs where
  sclPin := true
  sdaPin := true
  hpdPin := true
  hpdEnWe := false
  hpdEnWdata := false
  evClear := false
  sinkStb := false
  sinkSop := false
  sinkEop := false
  sinkData := 0#32
  sourceAck := false

/-- Parameters of the vectors: the reference engine, a hot-plug pin. -/
def vectorParams (w : DataWidth) : Params := { dw := w, hasHpdPin := true, hasHpdEnPin := true, engine := .reference }

/-- A state with the given registers and inputs of the present tick; `mem[5]` = 0x26, `mem[127]` = 0x7C (section 2). -/
def tester (w : DataWidth) (i : Inputs) (r : Regs) : State :=
  { State.reset with cur := r, nxt := r, params := vectorParams w, mem := [(5, 0x26#8), (127, 0x7C#8)], pending := [i] }

/-- The same with quiet inputs and eight-bit units. -/
def quietTester (r : Regs) : State := tester .w8 quietInputs r

/-- The enabled engine in a state, with a bit counter. -/
def inState (st : EdidState) (counter : BitVec 4) : Regs := { Regs.reset with hpdEn := true, state := st, counter := counter }

/-- The primed registers an answer holds. -/
def primed : Result → Option Regs
  | .next t => some t.nxt
  | .fault _ => none
  | .refused _ => none

/-- The wires an answer holds. -/
def driven : Result → Option Wires
  | .next t => some t.wires
  | .fault _ => none
  | .refused _ => none

/-- What software read. -/
def softwareRead : Result → Option Byte
  | .next t => some t.swResult
  | .fault _ => none
  | .refused _ => none

/-! ## Synchronizer and edge detector (section 3) -/

theorem test_syncScl : (primed (exec .syncScl (quietTester { Regs.reset with sclS1 := false }))).map
    (fun n => (n.sclS1, n.sclS2)) = some (true, false) := by decide
theorem test_syncSda : (primed (exec .syncSda (tester .w8 { quietInputs with sdaPin := false }
    { Regs.reset with sdaS1 := true }))).map (fun n => (n.sdaS1, n.sdaS2)) = some (false, true) := by decide
/-- S1: the counter wraps at 63, and that is the carry. -/
theorem test_sampCount_wraps : (primed (exec .sampCount (quietTester { Regs.reset with sampCount := 63#6 }))).map
    Regs.sampCount = some 0#6 := by decide
theorem test_sampCount_carry : (driven (exec .sampCount (quietTester { Regs.reset with sampCount := 63#6 }))).map
    Wires.sampCarry = some true := by decide
theorem test_sampLatch_on_carry : (primed (exec .sampLatch (quietTester
    { Regs.reset with sampCount := 63#6, sclS2 := true }))).map (fun n => (n.sclI, n.sdaI)) = some (true, false) := by
  decide
theorem test_sampLatch_holds : (primed (exec .sampLatch (quietTester
    { Regs.reset with sampCount := 62#6, sclS2 := true }))).map (fun n => (n.sclI, n.sdaI)) = some (false, false) := by
  decide
theorem test_edgePrevScl : (primed (exec .edgePrevScl (quietTester { Regs.reset with sclI := true }))).map Regs.sclR =
    some true := by decide
theorem test_edgePrevSda : (primed (exec .edgePrevSda (quietTester { Regs.reset with sdaI := true }))).map Regs.sdaR =
    some true := by decide
/-- S7, rows 1 and 2. -/
theorem test_edgeSclRising : (driven (exec .edgeSclRising (quietTester { Regs.reset with sclI := true }))).map
    Wires.sclRising = some true := by decide
theorem test_edgeSclRising_held : (driven (exec .edgeSclRising (quietTester
    { Regs.reset with sclI := true, sclR := true }))).map Wires.sclRising = some false := by decide
/-- S7, row 5. -/
theorem test_edgeSdaRising : (driven (exec .edgeSdaRising (quietTester { Regs.reset with sdaI := true }))).map
    Wires.sdaRising = some true := by decide
/-- S7, row 3. -/
theorem test_edgeSdaFalling : (driven (exec .edgeSdaFalling (quietTester { Regs.reset with sdaR := true }))).map
    Wires.sdaFalling = some true := by decide
/-- S7, rows 4 and 3: the present clock sample decides. -/
theorem test_edgeStart : (driven (exec .edgeStart (quietTester
    { Regs.reset with sclI := true, sdaR := true }))).map Wires.start = some true := by decide
theorem test_edgeStart_low_clock : (driven (exec .edgeStart (quietTester
    { Regs.reset with sclR := true, sdaR := true }))).map Wires.start = some false := by decide

/-! ## Byte engine (section 4) -/

/-- B4: the ninth clock. -/
theorem test_bitCount_ninth : (primed (exec .bitCount (quietTester
    { inState .rcvAddress 8#4 with sclI := true, sdaI := true }))).map Regs.counter = some 0#4 := by decide
/-- B6: START and a rising edge together. -/
theorem test_bitCount_start_wins : (primed (exec .bitCount (quietTester
    { inState .rcvAddress 3#4 with sclI := true, sdaR := true }))).map Regs.counter = some 0#4 := by decide
/-- B2: `din` = 0x50 and a 0. -/
theorem test_bitShift : (primed (exec .bitShift (quietTester
    { inState .rcvAddress 7#4 with din := 0x50#8, sclI := true }))).map Regs.din = some 0xA0#8 := by decide
/-- B4: no shift on the ninth clock. -/
theorem test_bitShift_ninth : (primed (exec .bitShift (quietTester
    { inState .rcvAddress 8#4 with din := 0xA0#8, sclI := true, sdaI := true }))).map Regs.din = some 0xA0#8 := by decide
/-- B8. -/
theorem test_dirLatch : (primed (exec .dirLatch (quietTester { inState .rcvAddress 8#4 with din := 0xA1#8 }))).map
    Regs.isRead = some true := by decide
/-- B10: not written. -/
theorem test_dirLatch_miss : (primed (exec .dirLatch (quietTester { inState .rcvAddress 8#4 with din := 0xA3#8 }))).map
    Regs.isRead = some false := by decide
/-- B12, B12a. -/
theorem test_offLoad : (primed (exec .offLoad (quietTester { inState .rcvOffset 8#4 with din := 0xFF#8 }))).map
    Regs.offset = some 127#7 := by decide
theorem test_offLoad_bit7 : (primed (exec .offLoad (quietTester
    { inState .rcvOffset 8#4 with din := 0x80#8, offset := 9#7 }))).map Regs.offset = some 0#7 := by decide
/-- B13. -/
theorem test_offInc_wraps : (primed (exec .offInc (quietTester
    { inState .ackRead 8#4 with offset := 127#7, sclI := true }))).map Regs.offset = some 0#7 := by decide
/-- B15: 0x7C, counters 1 and 6. -/
theorem test_drvBit_1 : (primed (exec .drvBit (quietTester { inState .read 1#4 with offset := 127#7 }))).map
    Regs.dataBit = some true := by decide
theorem test_drvBit_6 : (primed (exec .drvBit (quietTester
    { inState .read 6#4 with offset := 127#7, dataBit := true }))).map Regs.dataBit = some false := by decide
theorem test_drvEn_starts : (primed (exec .drvEn (quietTester (inState .read 3#4)))).map Regs.dataDrv = some true := by
  decide
theorem test_drvEn_stops : (primed (exec .drvEn (quietTester { inState .read 8#4 with dataDrv := true }))).map
    Regs.dataDrv = some false := by decide
theorem test_drvSdaO : (driven (exec .drvSdaO (quietTester (inState .read 3#4)))).map Wires.sdaO = some false := by decide
/-- B20, B22. -/
theorem test_drvSdaOe_bit : (driven (exec .drvSdaOe (quietTester { inState .read 3#4 with dataDrv := true }))).map
    Wires.sdaOe = some true := by decide
theorem test_drvSdaOe_ack : (driven (exec .drvSdaOe (quietTester
    { inState .ackAddress1 8#4 with dataBit := true }))).map Wires.sdaOe = some true := by decide

/-! ## Protocol machine (section 5) -/

/-- F13: the disable beats START. -/
theorem test_ovrHpd : (primed (exec .ovrHpd (quietTester { inState .ackAddress1 8#4 with hpdEn := false }))).map
    Regs.state = some .waitStart := by decide
/-- F10. -/
theorem test_ovrStart : (primed (exec .ovrStart (quietTester
    { inState .rcvOffset 3#4 with sclI := true, sdaR := true }))).map Regs.state = some .rcvAddress := by decide
/-- F1, F2. -/
theorem test_stWaitStart : (primed (exec .stWaitStart (quietTester (inState .waitStart 4#4)))).map Regs.state =
    some .waitStart := by decide
theorem test_stWaitStart_start : (primed (exec .stWaitStart (quietTester
    { inState .waitStart 4#4 with sclI := true, sdaR := true }))).map Regs.state = some .rcvAddress := by decide
/-- F4, F6. -/
theorem test_stRcvAddress_match : (primed (exec .stRcvAddress (quietTester
    { inState .rcvAddress 8#4 with din := 0xA1#8 }))).map (fun n => (n.state, n.isRead)) = some (.ackAddress0, true) := by
  decide
theorem test_stRcvAddress_miss : (primed (exec .stRcvAddress (quietTester
    { inState .rcvAddress 8#4 with din := 0x50#8 }))).map (fun n => (n.state, n.isRead)) = some (.waitStart, false) := by
  decide
/-- F7. -/
theorem test_stAckAddress0_low : (primed (exec .stAckAddress0 (quietTester (inState .ackAddress0 8#4)))).map Regs.state =
    some .ackAddress1 := by decide
theorem test_stAckAddress0_high : (primed (exec .stAckAddress0 (quietTester
    { inState .ackAddress0 8#4 with sclI := true }))).map Regs.state = some .ackAddress0 := by decide
/-- F8. -/
theorem test_stAckAddress1_high : (primed (exec .stAckAddress1 (quietTester
    { inState .ackAddress1 8#4 with sclI := true }))).map Regs.state = some .ackAddress2 := by decide
/-- F9. -/
theorem test_stAckAddress2_write : (primed (exec .stAckAddress2 (quietTester (inState .ackAddress2 0#4)))).map
    Regs.state = some .rcvOffset := by decide
theorem test_stAckAddress2_read : (primed (exec .stAckAddress2 (quietTester
    { inState .ackAddress2 0#4 with isRead := true }))).map Regs.state = some .read := by decide
/-- F14. -/
theorem test_stRcvOffset : (primed (exec .stRcvOffset (quietTester
    { inState .rcvOffset 8#4 with din := 0x85#8 }))).map (fun n => (n.state, n.offset)) = some (.ackOffset0, 5#7) := by
  decide
theorem test_stAckOffset0 : (primed (exec .stAckOffset0 (quietTester (inState .ackOffset0 8#4)))).map Regs.state =
    some .ackOffset1 := by decide
theorem test_stAckOffset1 : (primed (exec .stAckOffset1 (quietTester
    { inState .ackOffset1 8#4 with sclI := true }))).map Regs.state = some .ackOffset2 := by decide
/-- F15. -/
theorem test_stAckOffset2 : (primed (exec .stAckOffset2 (quietTester (inState .ackOffset2 0#4)))).map Regs.state =
    some .rcvAddress := by decide
/-- F12: the strobes act although the engine is disabled; bit 5 of 0x26 is 1. -/
theorem test_stRead_disabled : (primed (exec .stRead (quietTester
    { inState .read 2#4 with hpdEn := false, offset := 5#7 }))).map (fun n => (n.state, n.dataDrv, n.dataBit)) =
    some (.waitStart, true, true) := by decide
/-- F16. -/
theorem test_stRead_stops : (primed (exec .stRead (quietTester { inState .read 8#4 with dataDrv := true }))).map
    (fun n => (n.state, n.dataDrv)) = some (.ackRead, false) := by decide
/-- F17, F20: the increment happens under START too. -/
theorem test_stAckRead : (primed (exec .stAckRead (quietTester
    { inState .ackRead 8#4 with offset := 127#7, sclI := true }))).map (fun n => (n.state, n.offset)) =
    some (.read, 0#7) := by decide
theorem test_stAckRead_start : (primed (exec .stAckRead (quietTester
    { inState .ackRead 8#4 with offset := 5#7, sclI := true, sdaR := true }))).map (fun n => (n.state, n.offset)) =
    some (.rcvAddress, 6#7) := by decide
/-- R168 at the tick: the counter, the offset and the state of F18 together. -/
theorem test_tick_nack : (fun n : Regs => (n.state, n.offset, n.counter)) (tick (quietTester
    { inState .ackRead 8#4 with sclI := true, sdaI := true })).cur = (.waitStart, 1#7, 0#4) := by decide

/-! ## The waveform of the bus operations (section 2) -/

/-- `A1` on the wire, most significant bit first. -/
theorem test_wireBits_A1 : wireBits (addressByte Config.slaveAddr true) =
    [true, false, true, false, false, false, false, true] := by decide
theorem test_offsetByte : offsetByte true 5#7 = 0x85#8 := by decide
/-- The wired-AND of 00_scope.md R16: an acknowledging engine wins over a released line. -/
theorem test_sdaLine_ack : sdaLine true (quietTester (inState .ackOffset2 0#4)) = false := by decide
theorem test_busInputs_lines : (fun i : Inputs => (i.sclPin, i.sdaPin, i.hpdPin)) (busInputs false true
    (quietTester (inState .rcvOffset 0#4))) = (false, true, true) := by decide

/-! ## Hot-plug, event, registers (section 6) -/

theorem test_hpdSync : (primed (exec .hpdSync (quietTester { Regs.reset with hpdS1 := false }))).map
    (fun n => (n.hpdS1, n.hpdS2)) = some (true, false) := by decide
/-- E1: 0 in the first ticks with a pin, 1 without. -/
theorem test_csrRdHpdNotif_pin : softwareRead (exec .csrRdHpdNotif (quietTester Regs.reset)) = some 0#8 := by decide
theorem test_csrRdHpdNotif_no_pin : softwareRead (exec .csrRdHpdNotif
    { quietTester Regs.reset with params := { vectorParams .w8 with hasHpdPin := false } }) = some 1#8 := by decide
/-- E2: the write shows in the next tick; bits above bit 0 are ignored (10_state.md R52). -/
theorem test_csrWrHpdEn : (primed (exec (.csrWrHpdEn 1#8) (quietTester Regs.reset))).map Regs.hpdEn = some true := by
  decide
theorem test_csrWrHpdEn_upper_bits : (primed (exec (.csrWrHpdEn 0xFE#8) (quietTester (inState .read 0#4)))).map
    Regs.hpdEn = some false := by decide
theorem test_csrRdHpdEn : softwareRead (exec .csrRdHpdEn (quietTester (inState .waitStart 0#4))) = some 1#8 := by decide
theorem test_hpdPin : (driven (exec .hpdPin (quietTester (inState .waitStart 0#4)))).map Wires.hpdEnPin =
    some (some true) := by decide
theorem test_hpdPin_absent : (driven (exec .hpdPin { quietTester (inState .waitStart 0#4) with
    params := { vectorParams .w8 with hasHpdEnPin := false } })).map Wires.hpdEnPin = some none := by decide
/-- E3. -/
theorem test_evLine : (driven (exec .evLine (quietTester (inState .rcvAddress 0#4)))).map
    (fun w => (w.evLine, w.evStatusQ)) = some (true, true) := by decide
theorem test_evEdge_rising : (driven (exec .evEdge (quietTester (inState .rcvAddress 0#4)))).map Wires.evEdge =
    some true := by decide
/-- E5: the falling edge. -/
theorem test_evEdge_falling : (driven (exec .evEdge (quietTester
    { inState .waitStart 8#4 with evLineR := true }))).map Wires.evEdge = some true := by decide
theorem test_evPrev : (primed (exec .evPrev (quietTester (inState .read 0#4)))).map Regs.evLineR = some true := by decide
/-- E6: an edge and a clear in one tick. -/
theorem test_evPending_set_wins : (primed (exec .evPending (tester .w8 { quietInputs with evClear := true }
    { inState .waitStart 8#4 with evLineR := true }))).map Regs.evPending = some true := by decide
theorem test_evCapture : (primed (exec .evCapture (quietTester
    { inState .waitStart 8#4 with evLineR := true, evCaptured := true }))).map Regs.evCaptured = some false := by decide
/-- E4. -/
theorem test_csrClrEv : (primed (exec .csrClrEv (quietTester
    { inState .rcvAddress 0#4 with evLineR := true, evPending := true, evCaptured := true }))).map
    (fun n => (n.evPending, n.evCaptured)) = some (false, true) := by decide
theorem test_csrRdEvStatus : softwareRead (exec .csrRdEvStatus (quietTester (inState .rcvAddress 0#4))) = some 1#8 := by
  decide
/-- E8: a read clears nothing. -/
theorem test_csrRdEvPending : softwareRead (exec .csrRdEvPending (quietTester
    { inState .rcvAddress 0#4 with evPending := true })) = some 1#8 := by decide
theorem test_csrRdEvPending_keeps : (primed (exec .csrRdEvPending (quietTester
    { inState .rcvAddress 0#4 with evPending := true }))).map Regs.evPending = some true := by decide
theorem test_csrRdEvCaptured : softwareRead (exec .csrRdEvCaptured (quietTester Regs.reset)) = some 0#8 := by decide
theorem test_evIrq : (driven (exec .evIrq (quietTester { Regs.reset with evPending := true }))).map Wires.irq =
    some true := by decide
theorem test_dbgTaps : (driven (exec .dbgTaps (quietTester
    { inState .ackAddress1 8#4 with sclS2 := true, sclI := false }))).map
    (fun w => (w.dbgScl, w.dbgSda, w.dbgSdaOe)) = some (true, false, true) := by decide

/-! ## CRC checker (section 8) -/

/-- A buffer entry. -/
def held (d : DataUnit) : Entry := { data := d, sop := false }

/-- A full buffer for eight-bit units, in `COPY`. -/
def fullRegs : Regs :=
  { Regs.reset with cstate := .copy, buf := [{ data := 0xDE#32, sop := true }, held 0xAD#32, held 0xBE#32, held 0x07#32] }

/-- A unit offered, the consumer ready. -/
def offered (d : DataUnit) : Inputs := { quietInputs with sinkStb := true, sinkData := d, sourceAck := true }

/-- H4, H3. -/
theorem test_crcFull : (driven (exec .crcFull (quietTester fullRegs))).map Wires.fifoFull = some true := by decide
theorem test_crcFull_not : (driven (exec .crcFull (quietTester { fullRegs with buf := [held 1#32, held 2#32, held 3#32] }))).map
    Wires.fifoFull = some false := by decide
theorem test_crcSrcStb : (driven (exec .crcSrcStb (quietTester fullRegs))).map Wires.sourceStb = some false := by decide
/-- H6, H5. -/
theorem test_crcFifoOut : (driven (exec .crcFifoOut (tester .w8 (offered 0x9D#32) fullRegs))).map Wires.fifoOut =
    some true := by decide
theorem test_crcFifoIn_stalls : (driven (exec .crcFifoIn (tester .w8
    { offered 0x9D#32 with sourceAck := false } fullRegs))).map Wires.fifoIn = some false := by decide
/-- H2. -/
theorem test_crcSinkAck : (driven (exec .crcSinkAck (tester .w8
    { offered 0xDE#32 with sourceAck := false } { Regs.reset with cstate := .idle }))).map Wires.sinkAck = some true := by
  decide
theorem test_crcSrcPayload : (driven (exec .crcSrcPayload (quietTester fullRegs))).map
    (fun w => (w.sourceData, w.sourceSop)) = some (0xDE#32, true) := by decide
theorem test_crcSrcEop : (driven (exec .crcSrcEop (tester .w8 { offered 0x4F#32 with sinkEop := true } fullRegs))).map
    Wires.sourceEop = some true := by decide
/-- H6: pop and push; the data is cut to `DW` bits. -/
theorem test_crcBufUpdate : (primed (exec .crcBufUpdate (tester .w8 (offered 0x19D#32) fullRegs))).map Regs.buf =
    some [held 0xAD#32, held 0xBE#32, held 0x07#32, held 0x9D#32] := by decide
/-- K8: the clear wins. -/
theorem test_crcBufUpdate_clear : (primed (exec .crcBufUpdate (tester .w8 (offered 0x41#32)
    { fullRegs with cstate := .reset }))).map Regs.buf = some [] := by decide
/-- The reference accumulator of section 8. -/
theorem test_crcEngineNext : (driven (exec .crcEngineNext (tester .w8 (offered 0xAD#32)
    { fullRegs with crcAcc := 0x4C96EFA1#32 }))).map Wires.crcNext = some 0x09FADAC4#32 := by decide
theorem test_crcEngineAcc : (primed (exec .crcEngineAcc (tester .w8 { offered 0xDE#32 with sinkSop := true }
    { Regs.reset with cstate := .idle, crcAcc := 0xFFFFFFFF#32 }))).map Regs.crcAcc = some 0x4C96EFA1#32 := by decide
/-- K2, tick 9: the residue is reached. -/
theorem test_crcSrcError : (driven (exec .crcSrcError (tester .w8 (offered 0x4F#32)
    { fullRegs with crcAcc := 0x00BE26A2#32 }))).map Wires.sourceError = some false := by decide
/-- `DW` = 16: the second payload unit of K4. -/
theorem test_refUpdate_w16 : refUpdate 0x4933BD6D#32 0x0403#32 16 = 0x49C30432#32 := by simp [refUpdate, refBit]
theorem test_crcBusy : (driven (exec .crcBusy (quietTester Regs.reset))).map Wires.busy = some true := by decide
/-- The example of R238. -/
theorem test_cstReset : (primed (exec .cstReset (quietTester { fullRegs with cstate := .reset }))).map
    (fun n => (n.cstate, n.crcAcc, n.buf)) = some (.idle, 0xFFFFFFFF#32, []) := by decide
/-- The example of R239. -/
theorem test_cstIdle : (primed (exec .cstIdle (tester .w8 { offered 0xDE#32 with sinkSop := true }
    { Regs.reset with cstate := .idle, crcAcc := 0xFFFFFFFF#32 }))).map (fun n => (n.cstate, n.crcAcc, n.buf.length)) =
    some (.copy, 0x4C96EFA1#32, 1) := by decide
theorem test_cstIdle_stray : (primed (exec .cstIdle (tester .w8 (offered 0x8B#32)
    { Regs.reset with cstate := .idle, crcAcc := 0xFFFFFFFF#32 }))).map (fun n => (n.cstate, n.crcAcc, n.buf.length)) =
    some (.idle, 0xFFFFFFFF#32, 1) := by decide
/-- K2, tick 9: the end mark leads to `RESET`. -/
theorem test_cstCopy_end : (primed (exec .cstCopy (tester .w8 { offered 0x4F#32 with sinkEop := true } fullRegs))).map
    Regs.cstate = some .reset := by decide
theorem test_cstCopy_stalled : (primed (exec .cstCopy (tester .w8
    { offered 0x4F#32 with sinkEop := true, sourceAck := false } fullRegs))).map Regs.cstate = some .copy := by decide

/-! ## Memory -/

theorem test_memory_write_keeps_form : Memory.wf (Memory.write [] 5#7 0x26#8) = true := by
  simp only [Memory.write, Memory.cell]
  split
  · rfl
  · next h => simp [Memory.wf, Memory.wfFrom, Config.memBytes, h]
theorem test_memRead_listed : memRead (quietTester Regs.reset) 127#7 = 0x7C#8 := by decide

/-! ## Witnesses: for every statement with hypotheses, what meets them together -/

theorem witness_DecodeInvertsEncode : Instr.wellFormed (.busAddrMiss 0x51#7 false) = true := by decide
theorem witness_DecodedIsWellFormed : decode (opWord 0#4 0#8 0b1_1010_0010#9) = .ok (.busAddrMiss 0x51#7 false) := by
  decide
theorem witness_LoadedOperationRuns : Instr.wellFormed (.busOffset true 127#7) = true := by decide

/-- A state whose script holds two words. -/
def scripted (w : OpWord) : State := { quietTester Regs.reset with script := [w, 0x00030000#32] }

theorem witness_StepRunsDecodedOperation : (scripted 0x00010076#32).script = [0x00010076#32, 0x00030000#32] ∧
    decode 0x00010076#32 = .ok .edgeStart := by decide
theorem witness_StepOutcomes_tick : (quietTester Regs.reset).script = [] := rfl
theorem witness_StepOutcomes_refused : (scripted 0x00060000#32).script = [0x00060000#32, 0x00030000#32] ∧
    decode 0x00060000#32 = .error .unknownFormat := by decide
theorem witness_ConfiguredImageIsRead_taken :
    ∃ s, configure 8 (List.replicate 128 255) true false .reference = .ok s := by
  simp [configure, widthOf, Config.memBytes]
theorem witness_ConfiguredImageIsRead_refused : ¬ 7 ∣ 32 ∧ (List.replicate 127 0).length ≠ 128 := by
  rw [List.length_replicate]; decide

theorem witness_SamplerCountsAndLatches_carry :
    (quietTester { Regs.reset with sampCount := 63#6 }).cur.sampCount = 63#6 := rfl
theorem witness_SamplerCountsAndLatches_other :
    (quietTester { Regs.reset with sampCount := 62#6 }).cur.sampCount ≠ 63#6 := by decide
theorem witness_SampleIsDecimatedPin : (quietTester { Regs.reset with sampCount := 61#6 }).cur.sampCount = 61#6 ∧
    (3 : Nat) ≤ 3 ∧ 3 ≤ 66 ∧ (3 : Nat) ≤ 66 ∧ (66 : Nat) ≤ 66 := by decide

/-- Two states that share the synchronizer and the pins, and differ elsewhere. -/
theorem witness_SynchronizerIndependent :
    syncRegs (quietTester (inState .read 3#4)).cur = syncRegs (quietTester Regs.reset).cur ∧
    ∀ j, j < 1 →
      (ticks j (quietTester (inState .read 3#4))).now.sclPin = (ticks j (quietTester Regs.reset)).now.sclPin ∧
      (ticks j (quietTester (inState .read 3#4))).now.sdaPin = (ticks j (quietTester Regs.reset)).now.sdaPin := by
  refine ⟨rfl, fun j hj => ?_⟩
  obtain rfl : j = 0 := by omega
  exact ⟨rfl, rfl⟩

theorem witness_BitPresented_send : (quietTester (inState .read 7#4)).cur.counter.toNat ≤ 8 := by decide
theorem witness_BitPresented_stop : (quietTester (inState .read 8#4)).cur.counter.toNat ≤ 8 := by decide

/-- A byte received in `RCV_ADDRESS`, in the tick in which the row acts. -/
def byteReceived : State :=
  quietTester { inState .rcvAddress 8#4 with din := 0xA1#8, sclI := true, sclR := true, sampCount := 1#6 }

theorem witness_FramingIsKept : FramingKept byteReceived ∧ step byteReceived = .next (tick byteReceived) := by
  refine ⟨⟨by decide, fun _ => ⟨rfl, rfl⟩, fun _ => ⟨rfl, rfl, rfl⟩⟩, rfl⟩
theorem witness_RegistersStayInRange : RegistersInRange { quietTester fullRegs with mem := [] } ∧
    step { quietTester fullRegs with mem := [] } = .next (tick { quietTester fullRegs with mem := [] }) := by
  refine ⟨⟨by decide, by decide, ?_, rfl⟩, rfl⟩
  show ∀ e ∈ fullRegs.buf, unitOf .w8 e.data = e.data
  decide

theorem witness_ReceivingRows_idle : (quietTester (inState .waitStart 8#4)).cur.state = .waitStart := rfl
theorem witness_ReceivingRows_address : (quietTester (inState .rcvAddress 7#4)).cur.state = .rcvAddress ∧
    (quietTester (inState .rcvAddress 7#4)).cur.counter ≠ 8#4 := by decide
theorem witness_ReceivingRows_match : byteReceived.cur.state = .rcvAddress ∧ byteReceived.cur.counter = 8#4 ∧
    byteReceived.cur.din.extractLsb' 1 7 = 0x50#7 := by decide
theorem witness_ReceivingRows_miss : (quietTester (inState .rcvAddress 8#4)).cur.counter = 8#4 ∧
    (quietTester (inState .rcvAddress 8#4)).cur.din.extractLsb' 1 7 ≠ 0x50#7 := by decide
theorem witness_ReceivingRows_offset : (quietTester (inState .rcvOffset 7#4)).cur.state = .rcvOffset ∧
    (quietTester (inState .rcvOffset 7#4)).cur.counter ≠ 8#4 ∧
    (quietTester (inState .rcvOffset 8#4)).cur.counter = 8#4 := by decide
theorem witness_AcknowledgeRows : (quietTester (inState .ackAddress0 8#4)).cur.state = .ackAddress0 ∧
    (quietTester (inState .ackAddress1 8#4)).cur.state = .ackAddress1 ∧
    (quietTester (inState .ackAddress2 0#4)).cur.state = .ackAddress2 ∧
    (quietTester (inState .ackOffset0 8#4)).cur.state = .ackOffset0 ∧
    (quietTester (inState .ackOffset1 8#4)).cur.state = .ackOffset1 ∧
    (quietTester (inState .ackOffset2 0#4)).cur.state = .ackOffset2 := by decide
theorem witness_ReadingRows_high : (quietTester { inState .read 8#4 with sclI := true }).cur.counter.toNat ≤ 8 ∧
    (quietTester { inState .read 8#4 with sclI := true }).cur.state = .read ∧
    (quietTester { inState .read 8#4 with sclI := true }).cur.sclI = true := by decide
theorem witness_ReadingRows_stop : (quietTester (inState .read 8#4)).cur.counter.toNat ≤ 8 ∧
    (quietTester (inState .read 8#4)).cur.state = .read ∧ (quietTester (inState .read 8#4)).cur.sclI = false ∧
    (quietTester (inState .read 8#4)).cur.counter = 8#4 := by decide
theorem witness_ReadingRows_send : (quietTester (inState .read 7#4)).cur.counter.toNat ≤ 8 ∧
    (quietTester (inState .read 7#4)).cur.state = .read ∧ (quietTester (inState .read 7#4)).cur.sclI = false ∧
    (quietTester (inState .read 7#4)).cur.counter ≠ 8#4 := by decide
theorem witness_ReadingRows_acknowledge :
    (quietTester { inState .ackRead 8#4 with sclI := true }).cur.state = .ackRead ∧
    clockRises (quietTester { inState .ackRead 8#4 with sclI := true }).cur = true ∧
    clockRises (quietTester (inState .ackRead 8#4)).cur = false := by decide
/-- A state selects one row of each machine: these two leave every row unselected once. -/
theorem witness_UnselectedRowsDoNothing : (quietTester Regs.reset).cur.state ≠ .ackRead ∧
    (quietTester (inState .ackRead 8#4)).cur.state ≠ .waitStart ∧ (quietTester Regs.reset).cur.cstate ≠ .idle ∧
    (quietTester fullRegs).cur.cstate ≠ .reset := by decide

/-- A disabled engine in the middle of a byte, software silent for two ticks. -/
def disabledEngine : State :=
  { quietTester { inState .rcvOffset 3#4 with hpdEn := false } with pending := [quietInputs, quietInputs] }

theorem witness_DisabledEngineWaits : disabledEngine.cur.hpdEn = false ∧
    (∀ j, j < 2 → (ticks j disabledEngine).now.hpdEnWe = true → (ticks j disabledEngine).now.hpdEnWdata = false) ∧
    1 ≤ 1 ∧ 1 ≤ 2 ∧ 2 ≤ 2 := by
  refine ⟨rfl, fun j hj => ?_, by decide⟩
  match j, hj with
  | 0, _ => exact fun h => rfl
  | 1, _ => exact fun h => rfl

theorem witness_StuckLowForever_kept :
    StuckLow (quietTester { inState .waitStart 2#4 with dataDrv := true, sclI := true, sclR := true }) :=
  ⟨rfl, rfl, rfl, rfl, rfl, rfl, rfl⟩
theorem witness_StuckLowForever_entered :
    let s := quietTester { inState .read 2#4 with hpdEn := false, dataDrv := true, sclI := true, sclR := true }
    s.cur.state = .read ∧ s.cur.sclI = true ∧ s.cur.dataDrv = true ∧ s.cur.dataBit = false ∧ DataAt false s ∧
      s.cur.hpdEn = false := ⟨rfl, rfl, rfl, rfl, ⟨rfl, rfl, rfl, rfl⟩, rfl⟩
/-- A low clock at counter 7: the row writes bit 0 of `0x7C`. -/
theorem witness_StuckLowForever_entered_low :
    let s := quietTester { inState .read 7#4 with hpdEn := false, offset := 127#7, dataDrv := true }
    s.cur.state = .read ∧ s.cur.sclI = false ∧ s.cur.counter.toNat < 8 ∧
      (memRead s s.cur.offset).getLsbD (7 - s.cur.counter.toNat) = false ∧ DataAt false s ∧ sdaLine true s = false ∧
      s.cur.hpdEn = false := ⟨rfl, rfl, by decide, by decide, ⟨rfl, rfl, rfl, rfl⟩, rfl, rfl⟩
theorem witness_OneTickRelease :
    let s := quietTester { inState .ackAddress2 0#4 with isRead := true, sclR := true }
    s.cur.state = .ackAddress2 ∧ s.cur.sclI = false ∧ s.cur.isRead = true ∧ s.cur.hpdEn = true ∧ s.cur.counter = 0#4 ∧
      s.cur.dataDrv = false ∧ s.cur.sampCount = 0#6 := ⟨rfl, rfl, rfl, rfl, rfl, rfl, rfl⟩

theorem witness_HotPlugStatus_pin : (quietTester Regs.reset).params.hasHpdPin = true := rfl
theorem witness_HotPlugStatus_no_pin :
    ({ quietTester Regs.reset with params := { vectorParams .w8 with hasHpdPin := false } } : State).params.hasHpdPin =
      false := rfl
theorem witness_EnableBitAccess_silent : (quietTester Regs.reset).now.hpdEnWe = false := rfl
theorem witness_EventFlagAndLatch_clear : ∃ t, exec .csrClrEv (quietTester Regs.reset) = .next t := ⟨_, rfl⟩
/-- No transition, and no clear in two ticks. -/
theorem witness_EventFollowsState_still :
    let s : State := { quietTester (inState .waitStart 0#4) with pending := [quietInputs, quietInputs] }
    NoEdge s ∧ (s.cur.state = .waitStart ↔ (tick s).cur.state = .waitStart) ∧ s.now.evClear = false ∧
      (tick s).now.evClear = false := by
  refine ⟨rfl, ?_, rfl, rfl⟩
  exact ⟨fun _ => by decide, fun _ => rfl⟩
/-- A START leaves `WAIT_START`. -/
theorem witness_EventFollowsState_moves :
    let s := quietTester { inState .waitStart 0#4 with sclI := true, sclR := true, sdaR := true }
    NoEdge s ∧ ¬(s.cur.state = .waitStart ↔ (tick s).cur.state = .waitStart) := by
  refine ⟨rfl, fun h => ?_⟩
  exact absurd (h.1 rfl) (by decide)

theorem witness_PayloadAndMarks_head :
    ∃ e rest, (quietTester fullRegs).cur.buf = e :: rest := ⟨_, _, rfl⟩
theorem witness_PayloadAndMarks_empty : (quietTester Regs.reset).cur.buf = [] := rfl

/-- The checker with `level` entries for eight-bit units, a unit offered, the consumer ready or not. -/
def checker (c : CrcState) (level : Nat) (ack sop : Bool) : State :=
  tester .w8 { offered 0x41#32 with sourceAck := ack, sinkSop := sop }
    { Regs.reset with cstate := c, buf := List.replicate level (held 7#32) }

/-- Whether the unit offered is accepted, as the statement `CheckerRows` says it. -/
def taken (s : State) : Bool :=
  s.now.sinkStb && (!decide (s.cur.buf.length = 32 / s.params.dw.bits) || s.now.sourceAck)

theorem witness_CheckerRows_reset : (checker .reset 4 true true).cur.cstate = .reset := rfl
theorem witness_CheckerRows_begin : (checker .idle 0 false true).cur.cstate = .idle ∧
    taken (checker .idle 0 false true) = true ∧ (checker .idle 0 false true).now.sinkSop = true := by decide
theorem witness_CheckerRows_stray : (checker .idle 4 false true).cur.cstate = .idle ∧
    ¬(taken (checker .idle 4 false true) = true ∧ (checker .idle 4 false true).now.sinkSop = true) := by decide
theorem witness_CheckerRows_taken : (checker .copy 4 true false).cur.cstate = .copy ∧
    taken (checker .copy 4 true false) = true := by decide
theorem witness_CheckerRows_stalled : (checker .copy 4 false false).cur.cstate = .copy ∧
    taken (checker .copy 4 false false) = false := by decide
theorem witness_BackPressureHolds :
    (checker .copy 4 false false).cur.buf.length = 32 / (checker .copy 4 false false).params.dw.bits ∧
    (checker .copy 4 false false).now.sourceAck = false ∧ (checker .copy 4 false false).cur.cstate ≠ .reset := by decide
theorem witness_BufferIsFifo : ∀ j, j < 2 → (ticks j (checker .copy 4 true false)).cur.cstate ≠ .reset := by
  intro j hj
  match j, hj with
  | 0, _ => decide
  | 1, _ => decide

/-- A frame of one payload unit and a check unit, 32 bits each, accepted in two ticks. -/
def shortFrame (payload check : DataUnit) : State :=
  { tester .w32 { offered payload with sinkSop := true } { Regs.reset with cstate := .idle, crcAcc := 0xFFFFFFFF#32 } with
    pending := [{ offered payload with sinkSop := true }, { offered check with sinkEop := true }] }

/-- The check unit of the payload 1, the CRC-32 of the bytes 01 00 00 00 (44_crc_checker.md R236), computed outside the model. -/
theorem test_checkSequence_of_one (s : State) (hw : s.params.dw = .w32) (he : s.params.engine = .reference) :
    IsCheckSequence s [0x01#32] [0x99F8B879#32] := by
  simp [IsCheckSequence, crcError, crcUpdate, crcInit, hw, he, refUpdate, refBit, DataWidth.ratio, DataWidth.bits,
    Config.crcWidth]
theorem witness_FrameRoundTrip :
    let s := shortFrame 0x01#32 0x99F8B879#32
    s.cur.cstate = .idle ∧ s.cur.buf = [] ∧ s.cur.crcAcc = crcInit s ∧ [0x01#32] ≠ [] ∧
    [0x99F8B879#32].length = 32 / s.params.dw.bits ∧ acceptedOver 1 s ≠ frame ([0x01#32] ++ [0x99F8B879#32]) ∧
    acceptedOver 2 s = frame ([0x01#32] ++ [0x99F8B879#32]) ∧ IsCheckSequence s [0x01#32] [0x99F8B879#32] :=
  ⟨rfl, rfl, rfl, by decide, by decide, by decide, by decide, test_checkSequence_of_one _ rfl rfl⟩
/-- The same frame with bit 0 of its payload changed. -/
theorem witness_FrameRoundTrip_changed :
    let s := shortFrame 0x00#32 0x99F8B879#32
    s.cur.cstate = .idle ∧ s.cur.buf = [] ∧ s.cur.crcAcc = crcInit s ∧ [0x00#32] ≠ [] ∧
    [0x99F8B879#32].length = 32 / s.params.dw.bits ∧ acceptedOver 1 s ≠ frame ([0x00#32] ++ [0x99F8B879#32]) ∧
    acceptedOver 2 s = frame ([0x00#32] ++ [0x99F8B879#32]) ∧ EngineMeetsContract s ∧ 0 < s.params.dw.bits ∧
    [0x00#32] = [] ++ (0x01#32 ^^^ BitVec.twoPow 32 0) :: [] ∧ IsCheckSequence s ([] ++ 0x01#32 :: []) [0x99F8B879#32] :=
  ⟨rfl, rfl, rfl, by decide, by decide, by decide, by decide, (by intro h; cases h), by decide, by decide,
    test_checkSequence_of_one _ rfl rfl⟩
theorem witness_EngineParameters_reference : (quietTester Regs.reset).params.engine = .reference := rfl
theorem witness_EngineParameters_external :
    { quietTester Regs.reset with params := { vectorParams .w8 with engine := .external } }.params.engine = .external := rfl
theorem witness_ReferenceEngineContract : (quietTester Regs.reset).params.engine = .reference := rfl
theorem witness_ReferenceCheckSequence : (quietTester Regs.reset).params.engine = .reference := rfl

theorem witness_NothingWritesMemory_exec : ∃ t, exec .busStop (quietTester Regs.reset) = .next t := ⟨_, rfl⟩
theorem witness_NothingWritesMemory_step : ∃ t, step (quietTester Regs.reset) = .next t := ⟨_, rfl⟩

/-- The same EDID engine beside two different checkers. -/
theorem witness_EnginesIndependent_edid :
    edidRegs (quietTester fullRegs).cur = edidRegs (quietTester Regs.reset).cur ∧
    (quietTester fullRegs).mem = (quietTester Regs.reset).mem ∧
    (quietTester fullRegs).tick = (quietTester Regs.reset).tick ∧
    (quietTester fullRegs).params.hasHpdPin = (quietTester Regs.reset).params.hasHpdPin ∧
    ∀ j, j < 1 → sameEdidInputs (ticks j (quietTester fullRegs)).now (ticks j (quietTester Regs.reset)).now := by
  refine ⟨rfl, rfl, rfl, rfl, fun j hj => ?_⟩
  obtain rfl : j = 0 := by omega
  exact ⟨rfl, rfl, rfl, rfl, rfl, rfl⟩
/-- The same checker beside two different EDID engines. -/
theorem witness_EnginesIndependent_crc :
    crcRegs (quietTester (inState .read 3#4)).cur = crcRegs (quietTester Regs.reset).cur ∧
    (quietTester (inState .read 3#4)).params.dw = (quietTester Regs.reset).params.dw ∧
    (quietTester (inState .read 3#4)).params.engine = (quietTester Regs.reset).params.engine ∧
    ∀ j, j < 1 → sameCrcInputs (ticks j (quietTester (inState .read 3#4))).now (ticks j (quietTester Regs.reset)).now := by
  refine ⟨rfl, rfl, rfl, fun j hj => ?_⟩
  obtain rfl : j = 0 := by omega
  exact ⟨rfl, rfl, rfl, rfl, rfl⟩

/-- An engine on the bus, nothing pending: its memory lists one byte. -/
def onBus (r : Regs) : State := { quietTester r with pending := [] }

/-- The registers of an engine that shows a low clock, with the event line settled. -/
def lowClock (st : EdidState) (counter : BitVec 4) : Regs :=
  { inState st counter with evLineR := st != .waitStart, sampCount := 17#6 }

/-- The registers of an engine that shows an idle bus. -/
def idleBus (st : EdidState) (counter : BitVec 4) : Regs :=
  { lowClock st counter with
    sclS1 := true, sclS2 := true, sclI := true, sclR := true, sdaS1 := true, sdaS2 := true, sdaI := true, sdaR := true }

theorem notPulling_of_released {s : State} (h : s.cur.dataDrv = false) : NotPulling s := by simp [NotPulling, h]

theorem witness_StartConditions_start :
    let s := onBus (idleBus .waitStart 8#4)
    BusIdle s ∧ Enabled s ∧ NoEdge s ∧ ¬(s.cur.counter = 8#4 ∧ (s.cur.state = .rcvAddress ∨ s.cur.state = .rcvOffset)) :=
  ⟨⟨⟨rfl, rfl, rfl, rfl⟩, ⟨rfl, rfl, rfl, rfl⟩⟩, ⟨rfl, rfl⟩, rfl, by decide⟩
theorem witness_StartConditions_disabled :
    let s := onBus { idleBus .waitStart 8#4 with hpdEn := false }
    BusIdle s ∧ s.cur.hpdEn = false ∧ s.pending = [] ∧ NoEdge s ∧ s.cur.state = .waitStart :=
  ⟨⟨⟨rfl, rfl, rfl, rfl⟩, ⟨rfl, rfl, rfl, rfl⟩⟩, rfl, rfl, rfl, rfl⟩
/-- The eighth bit of an address byte that does not match, and a 1 in the acknowledge bit: both pass through `WAIT_START`. -/
theorem witness_StartConditions_repeated_back :
    let s := onBus (lowClock .rcvAddress 7#4)
    let u := onBus (lowClock .ackRead 8#4)
    (ClockLow s ∧ Enabled s ∧ NoEdge s ∧ s.cur.counter.toNat ≤ 8 ∧ Framed s ∧ pulls (lowPhase s s.cur) = false ∧
      (highPhase true (lowPhase s s.cur)).state = .waitStart) ∧
    ClockLow u ∧ Enabled u ∧ NoEdge u ∧ u.cur.counter.toNat ≤ 8 ∧ Framed u ∧ pulls (lowPhase u u.cur) = false ∧
      (highPhase true (lowPhase u u.cur)).state = .waitStart :=
  ⟨⟨⟨rfl, rfl, rfl, rfl⟩, ⟨rfl, rfl⟩, rfl, by decide, by simp [Framed, onBus, lowClock, inState, quietTester, tester], rfl, rfl⟩,
    ⟨rfl, rfl, rfl, rfl⟩, ⟨rfl, rfl⟩, rfl, by decide, rfl, rfl, rfl⟩
theorem witness_StartConditions_repeated_kept :
    let s := onBus (lowClock .rcvOffset 7#4)
    ClockLow s ∧ Enabled s ∧ NoEdge s ∧ s.cur.counter.toNat ≤ 8 ∧ Framed s ∧ pulls (lowPhase s s.cur) = false ∧
      (highPhase true (lowPhase s s.cur)).state ≠ .waitStart :=
  ⟨⟨rfl, rfl, rfl, rfl⟩, ⟨rfl, rfl⟩, rfl, by decide, by simp [Framed, onBus, lowClock, inState, quietTester, tester], rfl, by decide⟩
/-- An acknowledge in progress holds the line. -/
theorem witness_StartConditions_repeated_held :
    let s := onBus (lowClock .ackAddress1 8#4)
    ClockLow s ∧ Enabled s ∧ NoEdge s ∧ s.cur.counter.toNat ≤ 8 ∧ Framed s ∧ pulls (lowPhase s s.cur) = true :=
  ⟨⟨rfl, rfl, rfl, rfl⟩, ⟨rfl, rfl⟩, rfl, by decide, ⟨rfl, rfl⟩, rfl⟩
theorem witness_AddressMatches :
    let s := onBus (lowClock .rcvAddress 0#4)
    ClockLow s ∧ Enabled s ∧ NotPulling s ∧ NoEdge s ∧ s.cur.state = .rcvAddress ∧ s.cur.counter = 0#4 :=
  ⟨⟨rfl, rfl, rfl, rfl⟩, ⟨rfl, rfl⟩, (notPulling_of_released rfl), rfl, rfl, rfl⟩
theorem witness_AddressMisses :
    let s := onBus (lowClock .rcvAddress 0#4)
    ClockLow s ∧ Enabled s ∧ NotPulling s ∧ NoEdge s ∧ s.cur.state = .rcvAddress ∧ s.cur.counter = 0#4 ∧
      0x51#7 ≠ 0x50#7 :=
  ⟨⟨rfl, rfl, rfl, rfl⟩, ⟨rfl, rfl⟩, (notPulling_of_released rfl), rfl, rfl, rfl, by decide⟩
theorem witness_OffsetByteLoads :
    let s := onBus (lowClock .rcvOffset 0#4)
    ClockLow s ∧ Enabled s ∧ NotPulling s ∧ NoEdge s ∧ s.cur.state = .rcvOffset ∧ s.cur.counter = 0#4 :=
  ⟨⟨rfl, rfl, rfl, rfl⟩, ⟨rfl, rfl⟩, (notPulling_of_released rfl), rfl, rfl, rfl⟩
theorem witness_ByteIsRead :
    let s := onBus { lowClock .read 0#4 with offset := 127#7 }
    ClockLow s ∧ Enabled s ∧ NoEdge s ∧ s.cur.state = .read ∧ s.cur.counter = 0#4 :=
  ⟨⟨rfl, rfl, rfl, rfl⟩, ⟨rfl, rfl⟩, rfl, rfl, rfl⟩
theorem witness_MasterAcknowledges :
    let s := onBus { lowClock .ackRead 8#4 with offset := 127#7 }
    ClockLow s ∧ Enabled s ∧ NotPulling s ∧ NoEdge s ∧ s.cur.state = .ackRead ∧ s.cur.counter = 8#4 :=
  ⟨⟨rfl, rfl, rfl, rfl⟩, ⟨rfl, rfl⟩, (notPulling_of_released rfl), rfl, rfl, rfl⟩
theorem witness_StopIsNotDecoded_waiting :
    let s := onBus (lowClock .waitStart 8#4)
    ClockLow s ∧ Enabled s ∧ NoEdge s ∧ s.cur.counter.toNat ≤ 8 ∧ Framed s :=
  ⟨⟨rfl, rfl, rfl, rfl⟩, ⟨rfl, rfl⟩, rfl, by decide, trivial⟩
theorem witness_StopIsNotDecoded_acknowledging :
    let s := onBus (lowClock .ackRead 8#4)
    ClockLow s ∧ Enabled s ∧ NoEdge s ∧ s.cur.counter.toNat ≤ 8 ∧ Framed s :=
  ⟨⟨rfl, rfl, rfl, rfl⟩, ⟨rfl, rfl⟩, rfl, by decide, rfl⟩
theorem witness_SequentialRead :
    let s := onBus { lowClock .read 0#4 with offset := 126#7 }
    ClockLow s ∧ Enabled s ∧ NoEdge s ∧ s.cur.state = .read ∧ s.cur.counter = 0#4 :=
  ⟨⟨rfl, rfl, rfl, rfl⟩, ⟨rfl, rfl⟩, rfl, rfl, rfl⟩
theorem witness_RandomRead :
    let s := onBus (idleBus .waitStart 8#4)
    BusIdle s ∧ Enabled s ∧ NotPulling s ∧ NoEdge s ∧ s.cur.state = .waitStart :=
  ⟨⟨⟨rfl, rfl, rfl, rfl⟩, ⟨rfl, rfl, rfl, rfl⟩⟩, ⟨rfl, rfl⟩, (notPulling_of_released rfl), rfl, rfl⟩

end Sys2Proof.Tests
end

