-- ==== Sys2Proof/Proofs/Scope.lean ====
section
/-! PROOFS. Proofs/Scope.lean: the statements of 00_scope.md: a tick is its operations, and the two engines share nothing. -/

namespace Sys2Proof.Proofs

open Sys2Proof.Machine Sys2Proof.Safety

/-! ## Operations performed one after the other -/

theorem performAll_cons {i : Instr} {s t : State} (is : List Instr) (h : exec i s = .next t) :
    performAll (i :: is) s = performAll is t := by simp only [performAll, h]

theorem performAll_append (is js : List Instr) (s : State) :
    performAll (is ++ js) s = (performAll is s).bind (performAll js) := by
  induction is generalizing s with
  | nil => rfl
  | cons i is ih =>
    cases h : exec i s with
    | next t => rw [List.cons_append, performAll_cons _ h, performAll_cons _ h, ih]
    | fault r => simp only [List.cons_append, performAll, h, Option.bind_none]
    | refused r => simp only [List.cons_append, performAll, h, Option.bind_none]

/-- Two lists of operations in sequence, each known by what it makes of its state. -/
theorem performAll_append_of_some {is js : List Instr} {s t u : State} (h : performAll is s = some t)
    (h' : performAll js t = some u) : performAll (is ++ js) s = some u := by
  rw [performAll_append, h, Option.bind_some, h']

/-! ## A tick in progress

Between its operations a tick differs from the state it began in by the primed registers and the wires only (00_scope.md R7). -/

/-- The state within the tick that began at `s`, with the registers primed and the wires driven so far. -/
def inTick (s : State) (n : Regs) (w : Wires) : State := { s with nxt := n, wires := w }

/-- What the operations of a list assign: the primed registers by `f`, the wires by `g`, both reading the tick's own state. -/
def Assigns (is : List Instr) (f : State → Regs → Regs) (g : State → Wires → Wires) : Prop :=
  ∀ (s : State) (n : Regs) (w : Wires), performAll is (inTick s n w) = some (inTick s (f s n) (g s w))

theorem Assigns.append {is js : List Instr} {f f' : State → Regs → Regs} {g g' : State → Wires → Wires}
    (h : Assigns is f g) (h' : Assigns js f' g') :
    Assigns (is ++ js) (fun s n => f' s (f s n)) (fun s w => g' s (g s w)) :=
  fun s n w => performAll_append_of_some (h s n w) (h' s (f s n) (g s w))

theorem Assigns.nil : Assigns [] (fun _ n => n) (fun _ w => w) := fun _ _ _ => rfl

section Then
variable {is : List Instr} {f : State → Regs → Regs} {g : State → Wires → Wires}

/-- One operation more, which stages registers by `f'` and drives wires by `g'`, reading neither. -/
theorem Assigns.both (h : Assigns is f g) (i : Instr) (f' : State → Regs → Regs) (g' : State → Wires → Wires)
    (hexec : ∀ s n w, exec i (inTick s n w) = .next (inTick s (f' s n) (g' s w))) :
    Assigns (is ++ [i]) (fun s n => f' s (f s n)) (fun s w => g' s (g s w)) :=
  h.append fun s n w => performAll_cons [] (hexec s n w)

/-- One operation more, which stages registers only. -/
theorem Assigns.stage (h : Assigns is f g) (i : Instr) (f' : State → Regs → Regs)
    (hexec : ∀ s n w, exec i (inTick s n w) = .next (inTick s (f' s n) w)) :
    Assigns (is ++ [i]) (fun s n => f' s (f s n)) g :=
  h.both i f' (fun _ w => w) hexec

/-- One operation more, which drives wires only. -/
theorem Assigns.drive (h : Assigns is f g) (i : Instr) (g' : State → Wires → Wires)
    (hexec : ∀ s n w, exec i (inTick s n w) = .next (inTick s n (g' s w))) :
    Assigns (is ++ [i]) f (fun s w => g' s (g s w)) :=
  h.both i (fun _ n => n) g' hexec
end Then

/-! ## What each component assigns in a tick -/

/-- The synchronizer's, sampler's and edge detector's registers (40_sync_edge.md R110 to R116). -/
def stageSync (s : State) (n : Regs) : Regs :=
  stageEdgePrevSda s (stageEdgePrevScl s (stageSampLatch s (stageSampCount s (stageSyncSda s (stageSyncScl s n)))))

/-- Their wires (R113, R117 to R120). -/
def driveSync (s : State) (w : Wires) : Wires :=
  driveStart s (driveSdaFalling s (driveSdaRising s (driveSclRising s (driveSampCarry s w))))

theorem assigns_sync :
    Assigns [.syncScl, .syncSda, .sampCount, .sampLatch, .edgePrevScl, .edgePrevSda, .edgeSclRising, .edgeSdaRising,
      .edgeSdaFalling, .edgeStart] stageSync driveSync :=
  (Assigns.nil
    |>.stage .syncScl stageSyncScl (fun _ _ _ => rfl)
    |>.stage .syncSda stageSyncSda (fun _ _ _ => rfl)
    |>.both .sampCount stageSampCount driveSampCarry (fun _ _ _ => rfl)
    |>.stage .sampLatch stageSampLatch (fun _ _ _ => rfl)
    |>.stage .edgePrevScl stageEdgePrevScl (fun _ _ _ => rfl)
    |>.stage .edgePrevSda stageEdgePrevSda (fun _ _ _ => rfl)
    |>.drive .edgeSclRising driveSclRising (fun _ _ _ => rfl)
    |>.drive .edgeSdaRising driveSdaRising (fun _ _ _ => rfl)
    |>.drive .edgeSdaFalling driveSdaFalling (fun _ _ _ => rfl)
    |>.drive .edgeStart driveStart (fun _ _ _ => rfl) :)

/-- The byte engine's registers: the counter, the shift register and what the strobes command (41_byte_engine.md). -/
def stageByte (s : State) (n : Regs) : Regs := stageStrobes s (stageBitShift s (stageBitCount s n))

/-- Its wires (20_memory.md R61, 41_byte_engine.md R142, R143). -/
def driveByte (s : State) (w : Wires) : Wires := driveSdaOe s (driveSdaO s (driveMemByte s w))

theorem assigns_byte :
    Assigns [.bitCount, .bitShift, .dirLatch, .offLoad, .offInc, .drvBit, .drvEn, .drvSdaO, .drvSdaOe] stageByte driveByte :=
  (Assigns.nil
    |>.stage .bitCount stageBitCount (fun _ _ _ => rfl)
    |>.stage .bitShift stageBitShift (fun _ _ _ => rfl)
    |>.stage .dirLatch stageDirLatch (fun _ _ _ => rfl)
    |>.stage .offLoad stageOffLoad (fun _ _ _ => rfl)
    |>.stage .offInc stageOffInc (fun _ _ _ => rfl)
    |>.both .drvBit stageDrvBit driveMemByte (fun _ _ _ => rfl)
    |>.stage .drvEn stageDrvEn (fun _ _ _ => rfl)
    |>.drive .drvSdaO driveSdaO (fun _ _ _ => rfl)
    |>.drive .drvSdaOe driveSdaOe (fun _ _ _ => rfl) :)

theorem assigns_overrides :
    Assigns [.ovrHpd, .ovrStart] (fun s n => stageOvrStart s (stageOvrHpd s n)) (fun _ w => w) :=
  (Assigns.nil
    |>.stage .ovrHpd stageOvrHpd (fun _ _ _ => rfl)
    |>.stage .ovrStart stageOvrStart (fun _ _ _ => rfl) :)

theorem performRow_inTick_selected {k : EdidState} {s : State} (n : Regs) (w : Wires) (h : s.cur.state = k) :
    performRow k (inTick s n w) = inTick s (stageRow s n) (driveRow s w) :=
  performRow_selected (s := inTick s n w) h

theorem performRow_inTick_other {k : EdidState} {s : State} (n : Regs) (w : Wires) (h : s.cur.state ≠ k) :
    performRow k (inTick s n w) = inTick s n w :=
  performRow_other (s := inTick s n w) h

/-- Of the eleven rows exactly the current state's is performed (30_encoding.md R108). -/
theorem assigns_rows :
    Assigns [.stWaitStart, .stRcvAddress, .stAckAddress0, .stAckAddress1, .stAckAddress2, .stRcvOffset, .stAckOffset0,
      .stAckOffset1, .stAckOffset2, .stRead, .stAckRead] stageRow driveRow := by
  intro s n w
  cases h : s.cur.state <;>
    simp [performAll, exec, execStWaitStart, execStRcvAddress, execStAckAddress0, execStAckAddress1, execStAckAddress2,
      execStRcvOffset, execStAckOffset0, execStAckOffset1, execStAckOffset2, execStRead, execStAckRead,
      performRow_inTick_selected _ _ h, performRow_inTick_other, h]

/-- The registers of the hot-plug block and of the event, but for the enable bit's write (43_hpd_event_csr.md R190, R200 to
R202). -/
def stageEvent (s : State) (n : Regs) : Regs :=
  stageEvCapture s (stageEvPending s (stageEvPrev s (stageHpdSync s n)))

/-- Their wires and the debug taps, but for the enable bit's read-back (R192, R195, R198 to R207). -/
def driveEvent (s : State) (w : Wires) : Wires :=
  driveTaps s (driveIrq s (driveEvCapturedQ s (driveEvPendingQ s (driveEvEdge s (driveEvLine s (driveHpdPin s
    (driveHpdNotif s w)))))))

theorem assigns_event :
    Assigns [.hpdSync, .hpdPin, .evLine, .evEdge, .evPrev, .evPending, .evCapture, .evIrq, .dbgTaps] stageEvent driveEvent :=
  (Assigns.nil
    |>.both .hpdSync stageHpdSync driveHpdNotif (fun _ _ _ => rfl)
    |>.drive .hpdPin driveHpdPin (fun _ _ _ => rfl)
    |>.drive .evLine driveEvLine (fun _ _ _ => rfl)
    |>.drive .evEdge driveEvEdge (fun _ _ _ => rfl)
    |>.stage .evPrev stageEvPrev (fun _ _ _ => rfl)
    |>.both .evPending stageEvPending driveEvPendingQ (fun _ _ _ => rfl)
    |>.both .evCapture stageEvCapture driveEvCapturedQ (fun _ _ _ => rfl)
    |>.drive .evIrq driveIrq (fun _ _ _ => rfl)
    |>.drive .dbgTaps driveTaps (fun _ _ _ => rfl) :)

/-- The checker's registers but for its state (44_crc_checker.md R228, R233). -/
def stageChecker (s : State) (n : Regs) : Regs := stageEngineAcc s (stageBufUpdate s n)

/-- The checker's wires but for its strobes (R220 to R226, R232, R234, R241). -/
def driveChecker (s : State) (w : Wires) : Wires :=
  driveBusy s (driveSrcError s (driveCrcNext s (driveSrcEop s (driveSrcPayload s (driveSinkAck s (driveFifoIn s
    (driveFifoOut s (driveSrcStb s (driveFull s w)))))))))

theorem assigns_checker :
    Assigns [.crcFull, .crcSrcStb, .crcFifoOut, .crcFifoIn, .crcSinkAck, .crcSrcPayload, .crcSrcEop, .crcBufUpdate,
      .crcEngineNext, .crcEngineAcc, .crcSrcError, .crcBusy] stageChecker driveChecker :=
  (Assigns.nil
    |>.drive .crcFull driveFull (fun _ _ _ => rfl)
    |>.drive .crcSrcStb driveSrcStb (fun _ _ _ => rfl)
    |>.drive .crcFifoOut driveFifoOut (fun _ _ _ => rfl)
    |>.drive .crcFifoIn driveFifoIn (fun _ _ _ => rfl)
    |>.drive .crcSinkAck driveSinkAck (fun _ _ _ => rfl)
    |>.drive .crcSrcPayload driveSrcPayload (fun _ _ _ => rfl)
    |>.drive .crcSrcEop driveSrcEop (fun _ _ _ => rfl)
    |>.stage .crcBufUpdate stageBufUpdate (fun _ _ _ => rfl)
    |>.drive .crcEngineNext driveCrcNext (fun _ _ _ => rfl)
    |>.stage .crcEngineAcc stageEngineAcc (fun _ _ _ => rfl)
    |>.drive .crcSrcError driveSrcError (fun _ _ _ => rfl)
    |>.drive .crcBusy driveBusy (fun _ _ _ => rfl) :)

theorem performCrcRow_inTick_selected {k : CrcState} {s : State} (n : Regs) (w : Wires) (h : s.cur.cstate = k) :
    performCrcRow k (inTick s n w) = inTick s (stageCrcRow s n) (driveCrcRow s w) :=
  performCrcRow_selected (s := inTick s n w) h

theorem performCrcRow_inTick_other {k : CrcState} {s : State} (n : Regs) (w : Wires) (h : s.cur.cstate ≠ k) :
    performCrcRow k (inTick s n w) = inTick s n w :=
  performCrcRow_other (s := inTick s n w) h

/-- Of the checker's three rows exactly the current state's is performed. -/
theorem assigns_crcRows : Assigns [.cstReset, .cstIdle, .cstCopy] stageCrcRow driveCrcRow := by
  intro s n w
  cases h : s.cur.cstate <;>
    simp [performAll, exec, execCstReset, execCstIdle, execCstCopy, performCrcRow_inTick_selected _ _ h,
      performCrcRow_inTick_other, h]

/-! ## The fifty-six operations together -/

theorem stageStrobes_eq (s : State) (n : Regs) : stageStrobes s n =
    { n with
      isRead := if (currentRow s).updateIsRead then rxRw s else n.isRead
      offset :=
        if !(currentRow s).ocLoad && (currentRow s).ocInc then s.cur.offset + 1#7
        else if (currentRow s).ocLoad then rxOff s else n.offset
      dataBit := if (currentRow s).dataDrvEn then bitToSend s else n.dataBit
      dataDrv :=
        if (currentRow s).dataDrvEn then true else if (currentRow s).dataDrvStop then false else n.dataDrv } := by
  simp only [stageStrobes, stageDrvEn, stageDrvBit, stageOffInc, stageOffLoad, stageDirLatch]

/-- The byte engine's operations and the row make the strobes' writes each (log 18); the second time changes nothing. -/
theorem stageStrobes_stageStrobes (s : State) (n : Regs) : stageStrobes s (stageStrobes s n) = stageStrobes s n := by
  simp only [stageStrobes_eq]
  grind

/-- The row's `state` holds the overrides already (42_edid_fsm.md R150) and replaces what they staged. -/
theorem stageRow_after_overrides (s : State) (n : Regs) :
    stageRow s (stageOvrStart s (stageOvrHpd s n)) = stageState s (stageStrobes s n) := by
  simp only [stageRow, stageStrobes_eq, stageState, stageOvrStart, stageOvrHpd]

/-- The checker's row writes accumulator and buffer again (log 18); the second time changes nothing. -/
theorem stageCrcRow_after_checker (s : State) (n : Regs) :
    stageCrcRow s (stageChecker s n) = stageCstate s (stageChecker s n) := by
  simp only [stageCrcRow_eq, stageChecker, stageEngineAcc, stageBufUpdate, stageCstate]
  grind

/-- The primed registers after all operations. -/
def stageAll (s : State) (n : Regs) : Regs :=
  stageCrcRow s (stageChecker s (stageEvent s (stageRow s (stageOvrStart s (stageOvrHpd s (stageByte s (stageSync s n)))))))

/-- The wires after all operations. -/
def driveAll (s : State) (w : Wires) : Wires :=
  driveCrcRow s (driveChecker s (driveEvent s (driveRow s (driveByte s (driveSync s w)))))

theorem assigns_tickOperations : Assigns tickOperations stageAll driveAll :=
  (assigns_sync
    |>.append assigns_byte
    |>.append assigns_overrides
    |>.append assigns_rows
    |>.append assigns_event
    |>.append assigns_checker
    |>.append assigns_crcRows :)

/-- The operations leave the tick's registers, but for the enable bit, which software's write strobe sets. -/
theorem tick_cur_eq_stageAll (s : State) : (tick s).cur =
    { stageAll s s.cur with hpdEn := if s.now.hpdEnWe = true then s.now.hpdEnWdata else s.cur.hpdEn } := by
  rw [stageAll, stageRow_after_overrides, stageByte, stageStrobes_stageStrobes, stageCrcRow_after_checker]
  rfl

/-- The operations leave the tick's wires, but for the read-back of the enable bit. -/
theorem tick_wires_eq_driveAll (s : State) (w : Wires) :
    (tick s).wires = { driveAll s w with hpdEnQ := s.cur.hpdEn } := rfl

/-- Settles O49: each component's operations assign what its rules stage and drive, and the tick commits their sum. -/
theorem tickPerformsOperations : Obligations.TickPerformsOperations := by
  intro s
  refine ⟨inTick s (stageAll s s.cur) (driveAll s s.wires), assigns_tickOperations s s.cur s.wires, rfl, rfl,
    tick_cur_eq_stageAll s, tick_wires_eq_driveAll s s.wires, ?_⟩
  rw [List.drop_one]
  rfl

/-! ## Each engine's view of the machine -/

/-- The inputs of the EDID engine, the checker's put aside (10_state.md R40). -/
def edidInputs (i : Inputs) : Inputs :=
  { i with sinkStb := false, sinkSop := false, sinkEop := false, sinkData := 0#32, sourceAck := false }

/-- The inputs of the checker, the EDID engine's put aside (10_state.md R43). -/
def crcInputs (i : Inputs) : Inputs :=
  { i with sclPin := false, sdaPin := false, hpdPin := false, hpdEnWe := false, hpdEnWdata := false, evClear := false }

theorem edidInputs_eq {i j : Inputs} (h : sameEdidInputs i j) : edidInputs i = edidInputs j := by
  obtain ⟨hscl, hsda, hhpd, hwe, hwdata, hclear⟩ := h
  simp only [edidInputs, hscl, hsda, hhpd, hwe, hwdata, hclear]

theorem crcInputs_eq {i j : Inputs} (h : sameCrcInputs i j) : crcInputs i = crcInputs j := by
  obtain ⟨hstb, hsop, heop, hdata, hack⟩ := h
  simp only [crcInputs, hstb, hsop, heop, hdata, hack]

/-- The machine as the EDID engine sees it: its registers, memory, parameter and inputs, everything else as after reset. -/
def edidView (s : State) : State :=
  { State.reset with
    cur := edidRegs s.cur
    mem := s.mem
    tick := s.tick
    params := { State.reset.params with hasHpdPin := s.params.hasHpdPin }
    pending := [edidInputs s.now] }

/-- The machine as the checker sees it: its registers, parameters and inputs, everything else as after reset. -/
def crcView (s : State) : State :=
  { State.reset with
    cur := { Regs.reset with cstate := s.cur.cstate, crcAcc := s.cur.crcAcc, buf := s.cur.buf }
    params := { State.reset.params with dw := s.params.dw, engine := s.params.engine }
    pending := [crcInputs s.now] }

/-- No rule of the EDID engine reads anything outside its view (00_scope.md R3). -/
theorem edidRegs_tick_view (s : State) : edidRegs (tick s).cur = edidRegs (tick (edidView s)).cur := rfl

/-- No rule of the checker's registers reads anything outside its view. -/
theorem crcRegs_tick_view (s : State) : crcRegs (tick s).cur = crcRegs (tick (crcView s)).cur := rfl

theorem edidRegs_tick_eq {s u : State} (hregs : edidRegs s.cur = edidRegs u.cur) (hmem : s.mem = u.mem)
    (htick : s.tick = u.tick) (hpin : s.params.hasHpdPin = u.params.hasHpdPin) (hnow : sameEdidInputs s.now u.now) :
    edidRegs (tick s).cur = edidRegs (tick u).cur := by
  have hview : edidView s = edidView u := by
    simp only [edidView, hregs, hmem, htick, hpin, edidInputs_eq hnow]
  rw [edidRegs_tick_view s, hview, ← edidRegs_tick_view u]

theorem crcRegs_tick_eq {s u : State} (hregs : crcRegs s.cur = crcRegs u.cur) (hdw : s.params.dw = u.params.dw)
    (hengine : s.params.engine = u.params.engine) (hnow : sameCrcInputs s.now u.now) :
    crcRegs (tick s).cur = crcRegs (tick u).cur := by
  simp only [crcRegs, Prod.mk.injEq] at hregs
  obtain ⟨hcstate, hacc, hbuf⟩ := hregs
  have hview : crcView s = crcView u := by
    simp only [crcView, hcstate, hacc, hbuf, hdw, hengine, crcInputs_eq hnow]
  rw [crcRegs_tick_view s, hview, ← crcRegs_tick_view u]

/-! ## The two engines over several ticks -/

@[simp] theorem ticks_tick (k : Nat) (s : State) : (ticks k s).tick = s.tick + k := by
  induction k with
  | zero => rfl
  | succ k ih => rw [ticks_succ, tick_tick, ih, Nat.add_assoc]

theorem edidRegs_ticks_eq {k : Nat} {s u : State} (hregs : edidRegs s.cur = edidRegs u.cur) (hmem : s.mem = u.mem)
    (htick : s.tick = u.tick) (hpin : s.params.hasHpdPin = u.params.hasHpdPin)
    (hnow : ∀ j, j < k → sameEdidInputs (ticks j s).now (ticks j u).now) :
    edidRegs (ticks k s).cur = edidRegs (ticks k u).cur := by
  induction k with
  | zero => exact hregs
  | succ k ih =>
    rw [ticks_succ, ticks_succ]
    exact edidRegs_tick_eq (ih fun j hj => hnow j (by omega)) (by simp only [ticks_mem, hmem])
      (by simp only [ticks_tick, htick]) (by simp only [ticks_params, hpin]) (hnow k (by omega))

theorem crcRegs_ticks_eq {k : Nat} {s u : State} (hregs : crcRegs s.cur = crcRegs u.cur)
    (hdw : s.params.dw = u.params.dw) (hengine : s.params.engine = u.params.engine)
    (hnow : ∀ j, j < k → sameCrcInputs (ticks j s).now (ticks j u).now) :
    crcRegs (ticks k s).cur = crcRegs (ticks k u).cur := by
  induction k with
  | zero => exact hregs
  | succ k ih =>
    rw [ticks_succ, ticks_succ]
    exact crcRegs_tick_eq (ih fun j hj => hnow j (by omega)) (by simp only [ticks_params, hdw])
      (by simp only [ticks_params, hengine]) (hnow k (by omega))

/-- Settles O50, by induction on the number of ticks, each engine's tick being fixed by its own view of the machine. -/
theorem enginesIndependent : Obligations.EnginesIndependent :=
  ⟨fun _ _ _ => edidRegs_ticks_eq, fun _ _ _ => crcRegs_ticks_eq⟩

end Sys2Proof.Proofs
end

section
/-! PROOFS. Proofs/State.lean: the statements of 10_state.md: the reset state, and the ranges every step keeps the registers in. -/

namespace Sys2Proof.Proofs

open Sys2Proof.Machine Sys2Proof.Safety

/-! ## What every step keeps

A step is one operation, or a tick where the script is empty. An operation either leaves the committed registers, the memory and
the parameters alone or is a bus operation, that is, ticks of the master's waveform. So a predicate on those three that a tick
keeps is kept by every step. -/

/-- The committed registers, the memory and the parameters are the same. The primed registers, the wires, the tick number, the
inputs, the script and what the outside parties read last may differ. -/
structure SameMachine (s t : State) : Prop where
  cur : t.cur = s.cur
  mem : t.mem = s.mem
  params : t.params = s.params

theorem SameMachine.refl (s : State) : SameMachine s s := ⟨rfl, rfl, rfl⟩

theorem sameMachine_stage_drive (s : State) (f : State → Regs → Regs) (g : State → Wires → Wires) :
    SameMachine s ((s.stage f).drive g) := ⟨rfl, rfl, rfl⟩

theorem sameMachine_masterByte (s : State) (b : Byte) : SameMachine s { s with masterByte := b } := ⟨rfl, rfl, rfl⟩

theorem sameMachine_masterAck (s : State) (b : Bool) : SameMachine s { s with masterAck := b } := ⟨rfl, rfl, rfl⟩

theorem sameMachine_performRow (k : EdidState) (s : State) : SameMachine s (performRow k s) := by
  by_cases h : s.cur.state = k
  · rw [performRow_selected h]; exact sameMachine_stage_drive s _ _
  · rw [performRow_other h]; exact .refl s

theorem sameMachine_performCrcRow (k : CrcState) (s : State) : SameMachine s (performCrcRow k s) := by
  by_cases h : s.cur.cstate = k
  · rw [performCrcRow_selected h]; exact sameMachine_stage_drive s _ _
  · rw [performCrcRow_other h]; exact .refl s

/-- A predicate on registers, memory and parameters that every tick keeps. As it cannot see the inputs, a tick under the bus
master's levels keeps it too. -/
structure TickInvariant (P : State → Prop) : Prop where
  same : ∀ {s t : State}, P s → SameMachine s t → P t
  ticked : ∀ {s : State}, P s → P (tick s)

namespace TickInvariant

variable {P : State → Prop} {s t : State}

/-! ### The bus operations, from the single tick up -/

theorem after_busTick (hP : TickInvariant P) {c d : Bool} (s : State) (h : P s) : P (busTick c d s) :=
  hP.ticked (hP.same h ⟨rfl, rfl, rfl⟩)

theorem after_quarter (hP : TickInvariant P) {c d : Bool} (h : P s) : P (quarter c d s) :=
  holdLines_induct hP.after_busTick _ h

theorem after_sendBit (hP : TickInvariant P) (b : Bool) (h : P s) : P (sendBit b s) :=
  hP.after_quarter (hP.after_quarter (hP.after_quarter (hP.after_quarter h)))

theorem after_readPoint (hP : TickInvariant P) (h : P s) : P (readPoint s) :=
  hP.after_quarter (hP.after_quarter h)

theorem after_readRest (hP : TickInvariant P) (h : P s) : P (afterRead s) :=
  hP.after_quarter (hP.after_quarter h)

theorem after_readBit (hP : TickInvariant P) (h : P s) : P (readBit s) :=
  hP.same (hP.after_readRest (hP.after_readPoint h)) (sameMachine_masterByte _ _)

theorem after_readAck (hP : TickInvariant P) (h : P s) : P (readAck s) :=
  hP.same (hP.after_readRest (hP.after_readPoint h)) (sameMachine_masterAck _ _)

theorem after_sendBits (hP : TickInvariant P) (bs : List Bool) (h : P s) : P (sendBits bs s) := by
  induction bs generalizing s with
  | nil => exact h
  | cons b bs ih => exact ih (hP.after_sendBit b h)

theorem after_readBits (hP : TickInvariant P) (k : Nat) (h : P s) : P (readBits k s) := by
  induction k generalizing s with
  | zero => exact h
  | succ k ih => exact ih (hP.after_readBit h)

theorem after_sendByte (hP : TickInvariant P) (b : Byte) (h : P s) : P (sendByte b s) :=
  hP.after_readAck (hP.after_sendBits _ h)

theorem after_startCondition (hP : TickInvariant P) (h : P s) : P (startCondition s) :=
  hP.after_quarter (hP.after_quarter h)

theorem after_repeatedStart (hP : TickInvariant P) (h : P s) : P (repeatedStart s) :=
  hP.after_quarter (hP.after_quarter (hP.after_quarter (hP.after_quarter h)))

theorem after_stopCondition (hP : TickInvariant P) (h : P s) : P (stopCondition s) :=
  hP.after_quarter (hP.after_quarter (hP.after_quarter h))

/-! ### Operation and step -/

theorem after_exec (hP : TickInvariant P) {i : Instr} (hexec : exec i s = .next t) (h : P s) : P t := by
  cases i
  case busStart repeated =>
    cases hexec
    cases repeated with
    | false => exact hP.after_startCondition h
    | true => exact hP.after_repeatedStart h
  case busAddrW | busAddrR | busAddrMiss | busOffset => cases hexec; exact hP.after_sendByte _ h
  case busRdbyte => cases hexec; exact hP.after_readBits _ h
  case busMack | busMnack => cases hexec; exact hP.after_sendBit _ h
  case busStop => cases hexec; exact hP.after_stopCondition h
  case stWaitStart | stRcvAddress | stAckAddress0 | stAckAddress1 | stAckAddress2 | stRcvOffset | stAckOffset0 | stAckOffset1 |
      stAckOffset2 | stRead | stAckRead =>
    cases hexec; exact hP.same h (sameMachine_performRow _ s)
  case cstReset | cstIdle | cstCopy => cases hexec; exact hP.same h (sameMachine_performCrcRow _ s)
  -- every other operation primes registers, drives wires or reads a register
  all_goals cases hexec; exact hP.same h ⟨rfl, rfl, rfl⟩

theorem after_step (hP : TickInvariant P) (hstep : step s = .next t) (h : P s) : P t := by
  cases hscript : s.script with
  | nil =>
    simp only [step, fetchWord_nil s hscript] at hstep
    cases hstep
    exact hP.ticked h
  | cons w rest =>
    simp only [step, fetchWord_cons s w rest hscript] at hstep
    cases hdecode : decode w with
    | error why => simp only [hdecode] at hstep; cases hstep
    | ok i =>
      simp only [hdecode] at hstep
      exact hP.after_exec hstep (hP.same h ⟨rfl, rfl, rfl⟩)

end TickInvariant

/-! ## The ranges of the registers (10_state.md R59) -/

/-- At 8 the next rising edge takes the counter to 0 (41_byte_engine.md R130), so it never passes 8. -/
theorem tick_counter_le {s : State} (h : s.cur.counter.toNat ≤ 8) : (tick s).cur.counter.toNat ≤ 8 := by
  rw [tick_counter]
  split_ifs with hstart hrising hdone
  · exact Nat.zero_le 8
  · exact Nat.zero_le 8
  · have hne : s.cur.counter ≠ 8#4 := by simpa [byteDone] using hdone
    bv_omega
  · exact h

/-- A unit enters a full buffer only where one leaves it (44_crc_checker.md R222, R223, R229). -/
theorem bufNext_length_le {s : State} (h : s.cur.buf.length ≤ s.params.dw.ratio) :
    (bufNext s).length ≤ s.params.dw.ratio := by
  rcases bufNext_cases s with ⟨-, hbuf⟩ | ⟨-, -, -, hbuf⟩ | ⟨-, -, -, hroom, hbuf⟩ | ⟨-, -, -, e, es, hold, hbuf⟩ <;> rw [hbuf]
  · exact Nat.zero_le _
  · exact h
  · have hne : s.cur.buf.length ≠ s.params.dw.ratio := by simpa [fifoFull, level, ratio] using hroom
    rw [List.length_append]
    exact Nat.lt_of_le_of_ne h hne
  · rw [hold] at h
    simpa using h

/-- Every entry after a commit was held before it or is the unit at the input. -/
theorem mem_bufNext {s : State} {e : Entry} (h : e ∈ bufNext s) : e ∈ s.cur.buf ∨ e = sinkEntry s := by
  rcases bufNext_cases s with ⟨-, hbuf⟩ | ⟨-, -, -, hbuf⟩ | ⟨-, -, -, -, hbuf⟩ | ⟨-, -, -, head, es, hold, hbuf⟩ <;>
    rw [hbuf] at h
  · cases h
  · exact .inl h
  · simpa using h
  · rw [hold]
    exact (List.mem_append.mp h).imp (List.mem_cons_of_mem head) List.mem_singleton.mp

theorem bufNext_narrow {s : State} (h : ∀ e ∈ s.cur.buf, unitOf s.params.dw e.data = e.data) :
    ∀ e ∈ bufNext s, unitOf s.params.dw e.data = e.data := by
  intro e he
  rcases mem_bufNext he with hold | rfl
  · exact h e hold
  · exact sinkUnit_narrow s

theorem tickInvariant_registersInRange : TickInvariant RegistersInRange where
  same h hsame := by
    obtain ⟨hcur, hmem, hparams⟩ := hsame
    rwa [RegistersInRange, hcur, hmem, hparams]
  ticked h := by
    obtain ⟨hcounter, hlevel, hunits, hmem⟩ := h
    exact ⟨tick_counter_le hcounter, bufNext_length_le hlevel, bufNext_narrow hunits, hmem⟩

/-- Settles O20: the ranges are kept by a tick, hence by every step. -/
theorem registersStayInRange : Obligations.RegistersStayInRange :=
  fun _ _ h hstep => tickInvariant_registersInRange.after_step hstep h

/-! ## The reset state (10_state.md R53) -/

/-- With no cell listed the memory reads as the image (R34). -/
theorem memRead_of_mem_nil {s : State} (h : s.mem = []) (a : BitVec 7) : memRead s a = Config.edidImage a := by
  rw [memRead, h]; rfl

/-- Settles O8: the register table, the image, and the wires of tick 0 by their rules from the table's values. -/
theorem resetState : Obligations.ResetState := by
  refine ⟨rfl, memRead_of_mem_nil rfl, ?_⟩
  rw [tick_wires]
  exact ⟨rfl, rfl, rfl, rfl⟩

/-- At reset the engine waits for a START with the counter at 0 and the samples equal to their previous-tick copies. -/
theorem framingKept_reset : FramingKept State.reset :=
  ⟨by decide, fun _ => ⟨rfl, rfl⟩, trivial⟩

/-- At reset counter and level are 0, and the memory lists no cell. -/
theorem registersInRange_reset : RegistersInRange State.reset :=
  ⟨by decide, Nat.zero_le _, List.forall_mem_nil _, reset_memory_wf⟩

/-- Settles O21: the base cases of the two invariants. -/
theorem invariantsAtReset : Obligations.InvariantsAtReset :=
  ⟨framingKept_reset, registersInRange_reset⟩

end Sys2Proof.Proofs
end

section
/-! PROOFS. Proofs/Memory.lean: the statements of 20_memory.md: nothing writes the EDID memory, and the elastic buffer is first in,
first out. -/

namespace Sys2Proof.Proofs

open Sys2Proof.Machine Sys2Proof.Safety

/-! ## The EDID memory (20_memory.md R63) -/

/-- The later state has the memory and the parameters of the earlier one. -/
structure MemoryKept (s t : State) : Prop where
  mem : t.mem = s.mem
  params : t.params = s.params

theorem MemoryKept.refl (s : State) : MemoryKept s s := ⟨rfl, rfl⟩

/-- A read depends on the listed cells only (R61). -/
theorem MemoryKept.memRead {s t : State} (h : MemoryKept s t) (a : BitVec 7) : memRead t a = memRead s a :=
  congrArg (Memory.read · a) h.mem

/-- No rule of a tick assigns memory or parameters. -/
theorem tickInvariant_memoryKept (s : State) : TickInvariant (MemoryKept s) where
  same h hsame := ⟨hsame.mem.trans h.mem, hsame.params.trans h.params⟩
  ticked h := ⟨(tick_mem _).trans h.mem, (tick_params _).trans h.params⟩

theorem exec_memoryKept {i : Instr} {s t : State} (hexec : exec i s = .next t) : MemoryKept s t :=
  (tickInvariant_memoryKept s).after_exec hexec (.refl s)

theorem step_memoryKept {s t : State} (hstep : step s = .next t) : MemoryKept s t :=
  (tickInvariant_memoryKept s).after_step hstep (.refl s)

/-- Settles O48: memory and parameters are an invariant of the tick, hence of every operation and every step. -/
theorem nothingWritesMemory : Obligations.NothingWritesMemory := by
  refine ⟨fun i s t hexec => ?_, fun s t hstep => (step_memoryKept hstep).memRead⟩
  have hkept := exec_memoryKept hexec
  exact ⟨hkept.mem, hkept.params, hkept.memRead⟩

/-! ## The beats of one tick (44_crc_checker.md R222 to R226) -/

theorem beatIn_of_accepted {s : State} (h : fifoIn s = true) :
    beatIn s = [{ data := sinkUnit s, sop := s.now.sinkSop, eop := s.now.sinkEop }] := by
  simp [beatIn, tick_wires, sinkAck, sinkUnit, h, sinkStb_of_fifoIn h]

theorem beatIn_of_not_accepted {s : State} (h : fifoIn s = false) : beatIn s = [] := by
  simp [beatIn, tick_wires, sinkAck, h]

/-- `fifo_out` is the output handshake (R222). -/
theorem beatOut_eq (s : State) : beatOut s =
    if fifoOut s then
      [{ data := sourceData s, sop := sourceSop s, eop := sourceEop s, error := sourceError s }]
    else [] := by
  simp [beatOut, tick_wires, fifoOut]

/-- The beat that leaves shows the buffer's head, under the mark and the verdict of the unit at the input (R225, R226, R234). -/
theorem beatOut_of_emitted {s : State} {e : Entry} {es : List Entry} (h : fifoOut s = true) (hbuf : s.cur.buf = e :: es) :
    beatOut s = [{ data := e.data, sop := e.sop, eop := sourceEop s, error := sourceError s }] := by
  simp [beatOut_eq, h, sourceData, sourceSop, hbuf]

theorem beatOut_of_not_emitted {s : State} (h : fifoOut s = false) : beatOut s = [] := by
  simp [beatOut_eq, h]

/-! ## The elastic buffer (20_memory.md R81)

The buffer passes a unit's data and its start mark; the end mark does not enter it (10_state.md R47). -/

/-- What the buffer holds, oldest first. -/
def heldUnits (s : State) : List (DataUnit × Bool) := s.cur.buf.map fun e => (e.data, e.sop)

/-- What of the accepted units enters the buffer. -/
def bufferedIn (us : List StreamUnit) : List (DataUnit × Bool) := us.map fun u => (u.data, u.sop)

/-- What of the emitted beats left the buffer. -/
def bufferedOut (bs : List OutBeat) : List (DataUnit × Bool) := bs.map fun b => (b.data, b.sop)

@[simp] theorem bufferedIn_append (us vs : List StreamUnit) : bufferedIn (us ++ vs) = bufferedIn us ++ bufferedIn vs :=
  List.map_append

@[simp] theorem bufferedOut_append (bs cs : List OutBeat) : bufferedOut (bs ++ cs) = bufferedOut bs ++ bufferedOut cs :=
  List.map_append

/-- Outside RESET one tick loses, adds and reorders nothing. -/
theorem tick_buffer_fifo {s : State} (hrun : s.cur.cstate ≠ .reset) :
    heldUnits s ++ bufferedIn (beatIn s) = bufferedOut (beatOut s) ++ heldUnits (tick s) := by
  rcases bufNext_cases s with ⟨hreset, -⟩ | ⟨-, hin, hout, hnext⟩ | ⟨-, hin, hout, -, hnext⟩ |
    ⟨-, hin, hout, e, es, hbuf, hnext⟩
  · exact absurd hreset hrun
  · -- no unit moves
    simp [heldUnits, bufferedIn, bufferedOut, beatIn_of_not_accepted hin, beatOut_of_not_emitted hout, hnext]
  · -- one unit enters behind the others
    simp [heldUnits, bufferedIn, bufferedOut, beatIn_of_accepted hin, beatOut_of_not_emitted hout, hnext, sinkEntry]
  · -- the oldest leaves as one enters
    simp [heldUnits, bufferedIn, bufferedOut, beatIn_of_accepted hin, beatOut_of_emitted hout hbuf, hbuf, hnext, sinkEntry]

theorem ticks_buffer_fifo (k : Nat) {s : State} (hrun : ∀ j, j < k → (ticks j s).cur.cstate ≠ .reset) :
    heldUnits s ++ bufferedIn (acceptedOver k s) = bufferedOut (emittedOver k s) ++ heldUnits (ticks k s) := by
  induction k generalizing s with
  | zero => exact List.append_nil _
  | succ k ih =>
    have hfirst := tick_buffer_fifo (s := s) (hrun 0 k.succ_pos)
    have hrest := ih (s := tick s) fun j hj => hrun (j + 1) (Nat.succ_lt_succ hj)
    calc heldUnits s ++ bufferedIn (beatIn s ++ acceptedOver k (tick s))
      _ = (heldUnits s ++ bufferedIn (beatIn s)) ++ bufferedIn (acceptedOver k (tick s)) := by
        rw [bufferedIn_append, List.append_assoc]
      _ = bufferedOut (beatOut s) ++ (heldUnits (tick s) ++ bufferedIn (acceptedOver k (tick s))) := by
        rw [hfirst, List.append_assoc]
      _ = bufferedOut (beatOut s ++ emittedOver k (tick s)) ++ heldUnits (ticks k (tick s)) := by
        rw [hrest, bufferedOut_append, List.append_assoc]

/-- Settles O44, by induction on the number of ticks, each of which passes its units in order. -/
theorem bufferIsFifo : Obligations.BufferIsFifo := fun k _ hrun => ticks_buffer_fifo k hrun

end Sys2Proof.Proofs
end

section
/-! PROOFS. Proofs/Encoding.lean: the statements of 30_encoding.md about words: the encoder against the decoder, the step that
fetches a word, and the rows a step does not select. -/

namespace Sys2Proof.Proofs

open Sys2Proof.Machine Sys2Proof.Safety Sys2Proof.Laws

/-! ## Decoding the word of an operation (30_encoding.md R89 to R93, R108) -/

/-- A frame on the wire: the table of format I2C_BYTE sees the frame's byte and its ninth bit. -/
theorem decode_frame (k : BitVec 8) (ack : Bool) (byte : Byte) :
    decode (opWord Format.i2cByte.code k (BitVec.cons ack byte)) = decodeI2cByte k.toNat byte ack :=
  (decode_opWord _ _ _).trans (congrArg₂ (decodeI2cByte k.toNat) (opWord_byte _ k ack byte) (opWord_ack _ k ack byte))

/-- A register write: the table of format CSR sees the data word. -/
theorem decode_register (k : BitVec 8) (data : Byte) :
    decode (opWord Format.csr.code k (BitVec.cons false data)) = decodeCsr k.toNat data false :=
  (decode_opWord _ _ _).trans (congrArg₂ (decodeCsr k.toNat) (opWord_byte _ k false data) (opWord_ack _ k false data))

/-- The one check on an operand (R89, R173): the address of a miss is not the engine's own. -/
theorem decode_encode_busAddrMiss {addr : BitVec 7} (rw : Bool) (h : addr ≠ Config.slaveAddr) :
    decode (encode (.busAddrMiss addr rw)) = .ok (.busAddrMiss addr rw) :=
  calc decode (encode (.busAddrMiss addr rw))
    _ = decodeAddressFrame (addressByte addr rw) true := decode_frame _ _ _
    _ = .ok (.busAddrMiss addr rw) := by
      simp only [decodeAddressFrame, addressByte_addr, addressByte_rw, if_neg h, if_true]

theorem decode_encode_busOffset (ignored : Bool) (off : BitVec 7) :
    decode (encode (.busOffset ignored off)) = .ok (.busOffset ignored off) :=
  calc decode (encode (.busOffset ignored off))
    _ = decodeOffsetFrame (offsetByte ignored off) false := decode_frame _ _ _
    _ = .ok (.busOffset ignored off) := by
      simp only [decodeOffsetFrame, offsetByte_off, offsetByte_ignored, Bool.false_eq_true, if_false]

theorem decode_encode_csrWrHpdEn (data : Byte) :
    decode (encode (.csrWrHpdEn data)) = .ok (.csrWrHpdEn data) :=
  decode_register _ data

/-- Settles O1: three operations carry bits of their own in the word; every other one has a single word (a START one for each
form), which the table of its format lists. -/
theorem decodeInvertsEncode : Obligations.DecodeInvertsEncode := by
  intro i hwf
  cases i
  case busAddrMiss addr rw => exact decode_encode_busAddrMiss rw (by simpa [Instr.wellFormed] using hwf)
  case busOffset ignored off => exact decode_encode_busOffset ignored off
  case csrWrHpdEn data => exact decode_encode_csrWrHpdEn data
  case busStart repeated => cases repeated <;> rfl
  all_goals rfl

/-- Settles O3: each word is the encoder's word of its operation, bit for bit, so the decoder gives the operation back. -/
theorem tableWordsDecode : Obligations.TableWordsDecode :=
  ⟨decodeInvertsEncode .busAddrW rfl, decodeInvertsEncode .busAddrR rfl, decodeInvertsEncode (.busAddrMiss 0x51#7 true) rfl,
    decodeInvertsEncode (.busOffset true 5#7) rfl, decodeInvertsEncode (.busStart false) rfl, decodeInvertsEncode .busStop rfl,
    decodeInvertsEncode .stRead rfl, decodeInvertsEncode (.csrWrHpdEn 1#8) rfl⟩

/-! ## What the tables of the formats answer (42_edid_fsm.md R173) -/

/-- An address frame is a miss only where its address is not the engine's own. -/
theorem wellFormed_of_decodeAddressFrame {byte : Byte} {ack : Bool} {i : Instr} (h : decodeAddressFrame byte ack = .ok i) :
    i.wellFormed = true := by
  simp only [decodeAddressFrame] at h
  split_ifs at h with hown hack hread hack <;> cases h
  · rfl
  · rfl
  · exact bne_iff_ne.mpr hown

theorem wellFormed_of_decodeI2cByte {k : Nat} {byte : Byte} {ack : Bool} {i : Instr}
    (h : decodeI2cByte k byte ack = .ok i) : i.wellFormed = true := by
  unfold decodeI2cByte at h
  split at h
  · exact wellFormed_of_decodeAddressFrame h
  · unfold decodeOffsetFrame at h
    split_ifs at h
    cases h; rfl
  · cases h; rfl
  · cases ack <;> cases h <;> rfl
  · cases h

theorem wellFormed_of_decodeI2cCond {k p : Nat} {i : Instr} (h : decodeI2cCond k p = .ok i) : i.wellFormed = true := by
  unfold decodeI2cCond at h
  split at h <;> cases h <;> rfl

theorem wellFormed_of_decodeState {k p : Nat} {i : Instr} (h : decodeState k p = .ok i) : i.wellFormed = true := by
  unfold decodeState at h
  split at h <;> cases h <;> rfl

theorem wellFormed_of_decodeTick {k p : Nat} {i : Instr} (h : decodeTick k p = .ok i) : i.wellFormed = true := by
  unfold decodeTick at h
  split at h
  · cases h
  · split at h <;> cases h <;> rfl

theorem wellFormed_of_decodeCsr {k : Nat} {data : Byte} {ninth : Bool} {i : Instr} (h : decodeCsr k data ninth = .ok i) :
    i.wellFormed = true := by
  unfold decodeCsr at h
  split at h
  · cases h
  · split at h <;> (try split at h) <;> cases h <;> rfl

theorem wellFormed_of_decodeStream {k p : Nat} {i : Instr} (h : decodeStream k p = .ok i) : i.wellFormed = true := by
  unfold decodeStream at h
  split at h <;> cases h <;> rfl

/-- Settles O2: whichever table the word's format chooses, its answer is well formed. -/
theorem decodedIsWellFormed : Obligations.DecodedIsWellFormed := by
  intro w i h
  unfold decode at h
  split at h
  · split at h
    · exact wellFormed_of_decodeI2cByte h
    · exact wellFormed_of_decodeI2cCond h
    · exact wellFormed_of_decodeState h
    · exact wellFormed_of_decodeTick h
    · exact wellFormed_of_decodeCsr h
    · exact wellFormed_of_decodeStream h
    · cases h
  · cases h

/-! ## The step and the script's next word (30_encoding.md R106) -/

/-- Settles O5: the step fetches the word, decodes it and performs the operation. -/
theorem stepRunsDecodedOperation : Obligations.StepRunsDecodedOperation := by
  intro s w rest i hscript hdecode
  simp only [step, fetchWord_cons s w rest hscript, hdecode]

/-- A word of 32 bits goes through the host's view of the table unchanged. -/
theorem tableWord_toNat (w : OpWord) : tableWord 32 w.toNat = w := by
  rw [tableWord, Nat.mod_eq_of_lt w.isLt, BitVec.ofNat_toNat, BitVec.setWidth_eq]

/-- Settles O4: the loaded word is the operation's encoding, which decodes to the operation. -/
theorem loadedOperationRuns : Obligations.LoadedOperationRuns := by
  intro i s hwf
  rw [State.withFetchWord, tableWord_toNat]
  exact stepRunsDecodedOperation (loadWord s (encode i)) (encode i) [] i rfl (decodeInvertsEncode i hwf)

/-! ## Rows that are not selected (30_encoding.md R108) -/

/-- Settles O26: performing a row whose selector is not the present state is the identity. -/
theorem unselectedRowsDoNothing : Obligations.UnselectedRowsDoNothing := by
  intro s
  have row : ∀ {k : EdidState}, s.cur.state ≠ k → (.next (performRow k s) : Result) = .next s :=
    fun h => congrArg _ (performRow_other h)
  have crcRow : ∀ {k : CrcState}, s.cur.cstate ≠ k → (.next (performCrcRow k s) : Result) = .next s :=
    fun h => congrArg _ (performCrcRow_other h)
  exact ⟨row, row, row, row, row, row, row, row, row, row, row, crcRow, crcRow, crcRow⟩

end Sys2Proof.Proofs
end

section
/-! PROOFS. Proofs/BusPhases.lean: what one quarter of the master's waveform makes of the engine, from a low or a high clock, in
every state of the protocol machine and at every phase of the sampler (42_edid_fsm.md part 1; 70_reset_and_hazards.md R290). -/

namespace Sys2Proof.Proofs

open Sys2Proof.Machine Sys2Proof.Safety

/-! ## The engine's registers from tick to tick

`Safety.lowPhase` and `Safety.highPhase` say what a whole clock phase makes of the engine. A phase takes a few ticks: here is
what each of its ticks does. -/

/-- One tick while the clock sample is low (42_edid_fsm.md R155, R157, R161, R163, R164). -/
def lowTick (s : State) (r : Regs) : Regs :=
  match r.state with
  | .waitStart => r
  | .rcvAddress => r
  | .ackAddress0 => { r with state := .ackAddress1 }
  | .ackAddress1 => r
  | .ackAddress2 => { r with state := if r.isRead = true then .read else .rcvOffset }
  | .rcvOffset => r
  | .ackOffset0 => { r with state := .ackOffset1 }
  | .ackOffset1 => r
  | .ackOffset2 => { r with state := .rcvAddress }
  | .read => readLow s r
  | .ackRead => r

/-- The tick of the rising clock edge with `bit` on the data line (41_byte_engine.md R130, R131; 42_edid_fsm.md R156, R162,
R165). -/
def riseTick (bit : Bool) (r : Regs) : Regs :=
  let n := countBit bit r
  match r.state with
  | .waitStart => n
  | .rcvAddress => n
  | .ackAddress0 => n
  | .ackAddress1 => { n with state := .ackAddress2 }
  | .ackAddress2 => n
  | .rcvOffset => n
  | .ackOffset0 => n
  | .ackOffset1 => { n with state := .ackOffset2 }
  | .ackOffset2 => n
  | .read => n
  | .ackRead => { n with state := if bit = true then .waitStart else .read, offset := r.offset + 1#7 }

/-- One tick while the clock sample stands high (42_edid_fsm.md R154, R156, R160, R162). -/
def highTick (r : Regs) : Regs :=
  match r.state with
  | .waitStart => r
  | .rcvAddress =>
    if r.counter = 8#4 then
      (if r.din.extractLsb' 1 7 = 0x50#7 then { r with state := .ackAddress0, isRead := r.din.getLsbD 0 }
       else { r with state := .waitStart })
    else r
  | .ackAddress0 => r
  | .ackAddress1 => { r with state := .ackAddress2 }
  | .ackAddress2 => r
  | .rcvOffset => if r.counter = 8#4 then { r with state := .ackOffset0, offset := r.din.extractLsb' 0 7 } else r
  | .ackOffset0 => r
  | .ackOffset1 => { r with state := .ackOffset2 }
  | .ackOffset2 => r
  | .read => r
  | .ackRead => r

/-- Where the bit counter stands when the clock has settled (41_byte_engine.md R132): a state that waits for a byte, or will with
the next low clock, has not got it whole; a state that acknowledges one has. -/
structure InFrame (r : Regs) : Prop where
  counter_le : r.counter.toNat ≤ 8
  byteOpen : r.state = .rcvAddress ∨ r.state = .rcvOffset ∨ r.state = .ackAddress2 ∨ r.state = .ackOffset2 →
    r.counter ≠ 8#4
  byteWhole : r.state = .ackAddress0 ∨ r.state = .ackOffset0 ∨ r.state = .ackAddress1 ∨ r.state = .ackOffset1 →
    r.counter = 8#4

/-! ### Two ticks make a low phase -/

theorem lowTick_of_read (s : State) {r : Regs} (h : r.state = .read) : lowTick s r = readLow s r := by
  simp [lowTick, h]

theorem lowTick_readLow (s : State) (r : Regs) : lowTick s (readLow s r) = readLow s r := by
  by_cases h : r.counter = 8#4 <;> simp [readLow, lowTick, h]

theorem lowPhase_eq_readLow (s : State) {r : Regs} (h : r.state = .read ∨ r.state = .ackAddress2 ∧ r.isRead = true) :
    lowPhase s r = readLow s r := by
  rcases h with h | ⟨h, hread⟩ <;> simp [lowPhase, *]

theorem lowTick_lowTick (s : State) (r : Regs) : lowTick s (lowTick s r) = lowPhase s r := by
  cases hstate : r.state
  case ackAddress2 => cases hread : r.isRead <;> simp [lowTick, lowPhase, readLow, hstate, hread]
  case read => rw [lowTick_of_read s hstate, lowTick_readLow, lowPhase_eq_readLow s (.inl hstate)]
  all_goals simp [lowTick, lowPhase, hstate]

theorem lowTick_lowPhase (s : State) (r : Regs) : lowTick s (lowPhase s r) = lowPhase s r := by
  cases hstate : r.state
  case ackAddress2 =>
    cases hread : r.isRead with
    | false => simp [lowTick, lowPhase, hstate, hread]
    | true => rw [lowPhase_eq_readLow s (.inr ⟨hstate, hread⟩), lowTick_readLow]
  case read => rw [lowPhase_eq_readLow s (.inl hstate), lowTick_readLow]
  all_goals simp [lowTick, lowPhase, hstate]

theorem lowTick_iterate (s : State) (r : Regs) (k : Nat) : (lowTick s)^[k + 2] r = lowPhase s r := by
  induction k with
  | zero => exact lowTick_lowTick s r
  | succ k ih => rw [Function.iterate_succ_apply', ih, lowTick_lowPhase]

@[simp] theorem readLow_counter (s : State) (r : Regs) : (readLow s r).counter = r.counter := by
  unfold readLow; split <;> rfl

@[simp] theorem lowTick_counter (s : State) (r : Regs) : (lowTick s r).counter = r.counter := by
  cases hstate : r.state
  all_goals simp [lowTick, hstate]

theorem readLow_ne_waitStart (s : State) (r : Regs) : (readLow s r).state ≠ .waitStart := by
  unfold readLow; split <;> simp

/-- The rows of a low clock neither enter nor leave `WAIT_START`. -/
theorem lowTick_waiting (s : State) (r : Regs) : (lowTick s r).state = .waitStart ↔ r.state = .waitStart := by
  cases hstate : r.state
  case ackAddress2 => cases hread : r.isRead <;> simp [lowTick, hstate, hread]
  case read => simp [lowTick, hstate, readLow_ne_waitStart]
  all_goals simp [lowTick, hstate]

theorem lowPhase_waiting (s : State) (r : Regs) : (lowPhase s r).state = .waitStart ↔ r.state = .waitStart := by
  rw [← lowTick_lowTick, lowTick_waiting, lowTick_waiting]

theorem readLow_state (s : State) (r : Regs) : (readLow s r).state = if r.counter = 8#4 then .ackRead else .read := by
  unfold readLow; split <;> rfl

theorem inFrame_lowTick (s : State) {r : Regs} (h : InFrame r) : InFrame (lowTick s r) := by
  refine ⟨by rw [lowTick_counter]; exact h.counter_le, ?_, ?_⟩ <;> rw [lowTick_counter]
  · cases hstate : r.state
    case read => by_cases hc : r.counter = 8#4 <;> simp [lowTick, readLow_state, hstate, hc]
    case rcvAddress | rcvOffset | ackAddress2 | ackOffset2 => exact fun _ => h.byteOpen (by simp [hstate])
    all_goals simp [lowTick, hstate]
  · cases hstate : r.state
    case read => by_cases hc : r.counter = 8#4 <;> simp [lowTick, readLow_state, hstate, hc]
    case ackAddress2 => cases hread : r.isRead <;> simp [lowTick, hstate, hread]
    case ackAddress0 | ackOffset0 | ackAddress1 | ackOffset1 => exact fun _ => h.byteWhole (by simp [hstate])
    all_goals simp [lowTick, hstate]

theorem inFrame_lowTick_iterate (s : State) (k : Nat) {r : Regs} (h : InFrame r) : InFrame ((lowTick s)^[k] r) :=
  Function.Iterate.rec InFrame h (fun _ => inFrame_lowTick s) k

theorem inFrame_lowPhase (s : State) {r : Regs} (h : InFrame r) : InFrame (lowPhase s r) := by
  rw [← lowTick_lowTick]
  exact inFrame_lowTick_iterate s 2 h

/-- The states that only wait for the clock to fall. -/
def WaitsForLow (r : Regs) : Prop :=
  r.state = .ackAddress0 ∨ r.state = .ackOffset0 ∨ r.state = .ackAddress2 ∨ r.state = .ackOffset2

theorem not_waitsForLow_lowPhase (s : State) (r : Regs) : ¬ WaitsForLow (lowPhase s r) := by
  unfold WaitsForLow
  cases hstate : r.state
  case read => by_cases hc : r.counter = 8#4 <;> simp [lowPhase, readLow_state, hstate, hc]
  case ackAddress2 =>
    cases hread : r.isRead
    · simp [lowPhase, hstate, hread]
    · by_cases hc : r.counter = 8#4 <;> simp [lowPhase, readLow_state, hstate, hread, hc]
  all_goals simp [lowPhase, hstate]

/-! ### The rising edge and one tick more make a high phase -/

section CountBit
variable (bit : Bool) (r : Regs)
@[simp] theorem countBit_state : (countBit bit r).state = r.state := by unfold countBit; split <;> rfl
@[simp] theorem countBit_isRead : (countBit bit r).isRead = r.isRead := by unfold countBit; split <;> rfl
@[simp] theorem countBit_offset : (countBit bit r).offset = r.offset := by unfold countBit; split <;> rfl
@[simp] theorem countBit_dataDrv : (countBit bit r).dataDrv = r.dataDrv := by unfold countBit; split <;> rfl
@[simp] theorem countBit_dataBit : (countBit bit r).dataBit = r.dataBit := by unfold countBit; split <;> rfl
end CountBit

theorem countBit_counter_le {bit : Bool} {r : Regs} (h : r.counter.toNat ≤ 8) : (countBit bit r).counter.toNat ≤ 8 := by
  unfold countBit
  split
  · exact Nat.zero_le 8
  · next hne => show (r.counter + 1#4).toNat ≤ 8; bv_omega

/-- The direction bit of an address byte is the last bit received (30_encoding.md R89). -/
theorem countBit_din_zero {bit : Bool} {r : Regs} (h : r.counter ≠ 8#4) : (countBit bit r).din.getLsbD 0 = bit := by
  simp [countBit, h]

theorem highTick_riseTick {bit : Bool} {r : Regs} (h : InFrame r) : highTick (riseTick bit r) = highPhase bit r := by
  cases hstate : r.state
  case rcvAddress =>
    have hbit := countBit_din_zero (bit := bit) (h.byteOpen (by simp [hstate]))
    simp only [riseTick, highTick, highPhase, countBit_state, hstate, hbit]
  case ackRead => cases bit <;> simp [riseTick, highTick, highPhase, hstate]
  all_goals simp [riseTick, highTick, highPhase, hstate]

theorem highTick_highPhase (bit : Bool) (r : Regs) : highTick (highPhase bit r) = highPhase bit r := by
  cases hstate : r.state
  case rcvAddress =>
    by_cases hc : (countBit bit r).counter = 8#4
    · by_cases ha : (countBit bit r).din.extractLsb' 1 7 = 0x50#7 <;> simp [highTick, highPhase, hstate, hc, ha]
    · simp [highTick, highPhase, hstate, hc]
  case rcvOffset =>
    by_cases hc : (countBit bit r).counter = 8#4 <;> simp [highTick, highPhase, hstate, hc]
  case ackRead => cases bit <;> simp [highTick, highPhase, hstate]
  all_goals simp [highTick, highPhase, hstate]

theorem highPhase_counter (bit : Bool) (r : Regs) : (highPhase bit r).counter = (countBit bit r).counter := by
  cases hstate : r.state
  case rcvAddress | rcvOffset => simp only [highPhase, hstate]; split_ifs <;> rfl
  all_goals simp [highPhase, hstate]

theorem inFrame_highPhase (bit : Bool) {r : Regs} (h : InFrame r) (hlow : ¬ WaitsForLow r) : InFrame (highPhase bit r) := by
  refine ⟨by rw [highPhase_counter]; exact countBit_counter_le h.counter_le, ?_, ?_⟩ <;> rw [highPhase_counter]
  · cases hstate : r.state
    case rcvAddress =>
      by_cases hc : (countBit bit r).counter = 8#4
      · by_cases hown : (countBit bit r).din.extractLsb' 1 7 = 0x50#7 <;> simp [highPhase, hstate, hc, hown]
      · simp [hc]
    case rcvOffset => by_cases hc : (countBit bit r).counter = 8#4 <;> simp [highPhase, hstate, hc]
    case ackAddress1 | ackOffset1 =>
      have hc : r.counter = 8#4 := h.byteWhole (by simp [hstate])
      simp [countBit, hc]
    case ackAddress0 | ackOffset0 | ackAddress2 | ackOffset2 => exact absurd hlow (by simp [WaitsForLow, hstate])
    case ackRead => cases bit <;> simp [highPhase, hstate]
    all_goals simp [highPhase, hstate]
  · cases hstate : r.state
    case rcvAddress =>
      by_cases hc : (countBit bit r).counter = 8#4
      · simp [hc]
      · simp [highPhase, hstate, hc]
    case rcvOffset => by_cases hc : (countBit bit r).counter = 8#4 <;> simp [highPhase, hstate, hc]
    case ackAddress0 | ackOffset0 | ackAddress2 | ackOffset2 => exact absurd hlow (by simp [WaitsForLow, hstate])
    case ackRead => cases bit <;> simp [highPhase, hstate]
    all_goals simp [highPhase, hstate]

/-- The engine enters `WAIT_START` in one of the two ticks. -/
theorem riseTick_waiting_or (bit : Bool) (r : Regs) :
    ((riseTick bit r).state = .waitStart ↔ r.state = .waitStart) ∨ highTick (riseTick bit r) = riseTick bit r := by
  cases hstate : r.state
  case ackRead => cases bit <;> simp [riseTick, highTick, hstate]
  all_goals simp [riseTick, hstate]

/-! ### The pull on the data line -/

theorem pulls_countBit (bit : Bool) (r : Regs) : pulls (countBit bit r) = pulls r := by simp [pulls]

theorem pulls_riseTick (bit : Bool) (r : Regs) : pulls (riseTick bit r) = pulls r := by
  cases hstate : r.state
  case ackRead => cases bit <;> simp [riseTick, pulls, hstate]
  all_goals simp [riseTick, pulls, hstate]

theorem pulls_highTick (r : Regs) : pulls (highTick r) = pulls r := by
  cases hstate : r.state
  case rcvAddress =>
    by_cases hc : r.counter = 8#4
    · by_cases ha : r.din.extractLsb' 1 7 = 0x50#7 <;> simp [highTick, pulls, hstate, hc, ha]
    · simp [highTick, hstate, hc]
  case rcvOffset => by_cases hc : r.counter = 8#4 <;> simp [highTick, pulls, hstate, hc]
  all_goals simp [highTick, pulls, hstate]

/-- The driver pulls through a high phase as it did before it (41_byte_engine.md R139, 42_edid_fsm.md R167). -/
theorem pulls_highPhase (bit : Bool) {r : Regs} (h : InFrame r) : pulls (highPhase bit r) = pulls r := by
  rw [← highTick_riseTick h, pulls_highTick, pulls_riseTick]

/-! ## The event over a bus operation (43_hpd_event_csr.md R199 to R202, R210) -/

/-- `EventFollows` through the event line: the line's value before and after decides. -/
theorem eventFollows_iff {s t : State} : EventFollows s t ↔ NoEdge t ∧
    (evLine t = evLine s → t.cur.evPending = s.cur.evPending ∧ t.cur.evCaptured = s.cur.evCaptured) ∧
    (evLine t ≠ evLine s → t.cur.evPending = true ∧ t.cur.evCaptured = evLine t) := by
  have hline : evLine t = evLine s ↔ (s.cur.state = .waitStart ↔ t.cur.state = .waitStart) := by
    rw [Bool.eq_iff_iff]
    simp only [evLine, bne_iff_ne]
    tauto
  have hdecide : decide (t.cur.state ≠ .waitStart) = evLine t := by
    by_cases ht : t.cur.state = .waitStart <;> simp [evLine, ht]
  simp only [EventFollows, EventKept, EventRaised, hdecide, ← hline]
  by_cases h : evLine t = evLine s
  · simp only [h, forall_const, not_true_eq_false, false_imp_iff, and_true, ne_eq]; tauto
  · simp only [h, false_imp_iff, not_false_eq_true, forall_const, true_and, ne_eq]; tauto

theorem eventFollows_refl {s : State} (h : NoEdge s) : EventFollows s s :=
  eventFollows_iff.mpr ⟨h, fun _ => ⟨rfl, rfl⟩, fun hne => absurd rfl hne⟩

/-- The event block has not yet seen what became of the event line since `s`. -/
structure EventBehind (s u : State) : Prop where
  pending : u.cur.evPending = s.cur.evPending
  captured : u.cur.evCaptured = s.cur.evCaptured
  previous : u.cur.evLineR = evLine s

theorem eventBehind_of_follows {s u : State} (h : EventFollows s u) (hline : evLine u = evLine s) : EventBehind s u := by
  obtain ⟨hedge, hkept, -⟩ := eventFollows_iff.mp h
  exact ⟨(hkept hline).1, (hkept hline).2, hedge.trans hline⟩

section EventTick
variable {s u : State} (c d : Bool)

/-- The line has not moved before this tick: the event registers keep their values. -/
theorem EventBehind.tick_kept (h : EventBehind s u) (hen : Enabled u) (hline : evLine u = evLine s) :
    EventBehind s (busTick c d u) := by
  have hedge : evEdge u = false := by rw [evEdge, hline, h.previous, bne_self_eq_false]
  refine ⟨?_, ?_, ?_⟩
  · rw [busTick_evPending c d hen.2, hedge]; exact h.pending
  · rw [busTick_evCaptured, hedge]; exact h.captured
  · rw [busTick_evLineR, hline]

/-- The line stands still in this tick: the event block sees what had become of it. -/
theorem EventBehind.tick_follows (h : EventBehind s u) (hen : Enabled u) (hstill : evLine (busTick c d u) = evLine u) :
    EventFollows s (busTick c d u) := by
  refine eventFollows_iff.mpr ⟨(busTick_evLineR c d u).trans hstill.symm, fun hsame => ?_, fun hmoved => ?_⟩
  · have hkept := h.tick_kept c d hen (hstill.symm.trans hsame)
    exact ⟨hkept.pending, hkept.captured⟩
  · have hedge : evEdge u = true := by rw [evEdge, h.previous, bne_iff_ne, ← hstill]; exact hmoved
    rw [busTick_evPending c d hen.2, busTick_evCaptured, hedge, hstill]
    exact ⟨rfl, rfl⟩

/-- Nothing is left to see, and the line stands still. -/
theorem eventFollows_tick (h : EventFollows s u) (hen : Enabled u) (hstill : evLine (busTick c d u) = evLine u) :
    EventFollows s (busTick c d u) := by
  obtain ⟨hnone, hkept, hraised⟩ := eventFollows_iff.mp h
  have hedge := evEdge_of_noEdge hnone
  refine eventFollows_iff.mpr ⟨(busTick_evLineR c d u).trans hstill.symm, ?_⟩
  rw [busTick_evPending c d hen.2, busTick_evCaptured, hedge, hstill]
  exact ⟨hkept, hraised⟩

end EventTick

/-! ## The engine in one tick of the bus -/

/-- `u`, reached from `s`, shows the engine's registers as in `r`. -/
structure Shows (s : State) (r : Regs) (u : State) : Prop where
  regs : engineRegs u.cur = engineRegs r
  mem : u.mem = s.mem
  enabled : Enabled u

/-- And the event block has seen what became of the event line since `s`. -/
structure Settled (s : State) (r : Regs) (u : State) : Prop extends Shows s r u where
  event : EventFollows s u

theorem settled_refl {s : State} (hen : Enabled s) (hedge : NoEdge s) : Settled s s.cur s :=
  ⟨⟨rfl, rfl, hen⟩, eventFollows_refl hedge⟩

theorem engineRegs_eq_iff {a b : Regs} : engineRegs a = engineRegs b ↔ a.state = b.state ∧ a.counter = b.counter ∧
    a.din = b.din ∧ a.isRead = b.isRead ∧ a.offset = b.offset ∧ a.dataDrv = b.dataDrv ∧ a.dataBit = b.dataBit := by
  simp only [engineRegs, Prod.mk.injEq]

section EngineTick
variable {s u : State} {r : Regs}

theorem Shows.evLine (h : Shows s r u) : evLine u = (r.state != .waitStart) := by
  obtain ⟨hstate, -⟩ := engineRegs_eq_iff.mp h.regs
  rw [Machine.evLine, hstate]

/-- The level of the data line (00_scope.md R16; 41_byte_engine.md R143). -/
theorem Shows.sdaLine (h : Shows s r u) (d : Bool) : sdaLine d u = (d && !pulls r) := by
  obtain ⟨hstate, -, -, -, -, hdrv, hbit⟩ := engineRegs_eq_iff.mp h.regs
  rw [Machine.sdaLine, sdaOe, zeroDrv_eq, pulls, hstate, hdrv, hbit]
  cases r.state <;> rfl

/-- The engine's registers after a tick without START: what the clock makes of counter and shift register, and what the row
commands. -/
theorem engineRegs_busTick (hen : Enabled u) (hstart : start u = false) (c d : Bool) :
    engineRegs (busTick c d u).cur =
      (let n := if sclRising u then countBit u.cur.sdaI u.cur else u.cur
       let row := currentRow u
       (row.next, n.counter, n.din, if row.updateIsRead then rxRw u else n.isRead,
         if !row.ocLoad && row.ocInc then u.cur.offset + 1#7 else if row.ocLoad then rxOff u else n.offset,
         if row.dataDrvEn then true else if row.dataDrvStop then false else n.dataDrv,
         if row.dataDrvEn then bitToSend u else n.dataBit)) := by
  have hnext := nextState_of_row hen.1 hstart
  rw [engineRegs, busTick_state, busTick_counter, busTick_din, busTick_isRead, busTick_offset, busTick_dataDrv,
    busTick_dataBit, hstart, hnext]
  cases hrise : sclRising u
  · simp
  · by_cases hdone : u.cur.counter = 8#4 <;> simp [countBit, byteDone, shiftedIn, hdone]

/-- Where the clock sample is low, the rows that wait for it act. -/
theorem Shows.tick_low (h : Shows s r u) (hframe : InFrame r) (hclock : u.cur.sclI = false)
    (c d : Bool) : Shows s (lowTick s r) (busTick c d u) := by
  refine ⟨?_, (busTick_mem c d u).trans h.mem, busTick_enabled c d h.enabled⟩
  obtain ⟨hstate, hcount, hdin, hread, hoffset, hdrv, hbit⟩ := engineRegs_eq_iff.mp h.regs
  rw [engineRegs_busTick h.enabled (start_of_low hclock), sclRising_of_low hclock]
  cases hs : r.state
  case read =>
    by_cases hdone : r.counter = 8#4
    · simp [engineRegs, currentRow, rowRead, quietRow, byteDone, lowTick, readLow, *]
    · have hsend : bitToSend u = (memRead s r.offset).getLsbD (7 - r.counter.toNat) := by
        have hlt : r.counter.toNat < 8 := by have := hframe.counter_le; bv_omega
        rw [bitToSend, hcount, if_pos hlt, memByte, memRead, h.mem, hoffset]; rfl
      simp [engineRegs, currentRow, rowRead, quietRow, byteDone, lowTick, readLow, *]
  case rcvAddress | rcvOffset =>
    have hdone : r.counter ≠ 8#4 := hframe.byteOpen (by simp [hs])
    simp [engineRegs, currentRow, rowRcvAddress, rowRcvOffset, quietRow, byteDone, lowTick, *]
  case ackRead => simp [engineRegs, currentRow, rowAckRead, sclRising_of_low hclock, quietRow, lowTick, *]
  all_goals
    simp [engineRegs, currentRow, rowWaitStart, rowAckAddress0, rowAckAddress1, rowAckAddress2, rowAckOffset0, rowAckOffset1,
      rowAckOffset2, quietRow, lowTick, *]

/-- The tick in which the sample shows the rising clock edge. -/
theorem Shows.tick_rise (h : Shows s r u) (hframe : InFrame r) (hstart : start u = false) (hclock : u.cur.sclI = true)
    (hprev : u.cur.sclR = false) (c d : Bool) : Shows s (riseTick u.cur.sdaI r) (busTick c d u) := by
  refine ⟨?_, (busTick_mem c d u).trans h.mem, busTick_enabled c d h.enabled⟩
  obtain ⟨hstate, hcount, hdin, hread, hoffset, hdrv, hbit⟩ := engineRegs_eq_iff.mp h.regs
  have hrise : sclRising u = true := by simp [sclRising, hclock, hprev]
  have hcounter : (countBit u.cur.sdaI u.cur).counter = (countBit u.cur.sdaI r).counter := by
    by_cases hdone : r.counter = 8#4 <;> simp [countBit, *]
  have hshift : (countBit u.cur.sdaI u.cur).din = (countBit u.cur.sdaI r).din := by
    by_cases hdone : r.counter = 8#4 <;> simp [countBit, *]
  rw [engineRegs_busTick h.enabled hstart, hrise]
  cases hs : r.state
  case rcvAddress | rcvOffset =>
    have hdone : r.counter ≠ 8#4 := hframe.byteOpen (by simp [hs])
    simp [engineRegs, currentRow, rowRcvAddress, rowRcvOffset, quietRow, byteDone, riseTick, *]
  all_goals
    simp [engineRegs, currentRow, rowWaitStart, rowAckAddress0, rowAckAddress1, rowAckAddress2, rowAckOffset0, rowAckOffset1,
      rowAckOffset2, rowRead, rowAckRead, quietRow, riseTick, *]

/-- Where the clock sample stands high, the rows that wait for a complete byte or for the high clock act. -/
theorem Shows.tick_high (h : Shows s r u) (hstart : start u = false) (hclock : u.cur.sclI = true) (hprev : u.cur.sclR = true)
    (c d : Bool) : Shows s (highTick r) (busTick c d u) := by
  refine ⟨?_, (busTick_mem c d u).trans h.mem, busTick_enabled c d h.enabled⟩
  obtain ⟨hstate, hcount, hdin, hread, hoffset, hdrv, hbit⟩ := engineRegs_eq_iff.mp h.regs
  have hrise : sclRising u = false := by simp [sclRising, hprev]
  rw [engineRegs_busTick h.enabled hstart, hrise]
  cases hs : r.state
  case rcvAddress =>
    by_cases hdone : r.counter = 8#4
    · by_cases hown : r.din.extractLsb' 1 7 = 0x50#7 <;>
        simp [engineRegs, currentRow, rowRcvAddress, quietRow, byteDone, addrMatch, rxAddr, rxRw, Config.slaveAddr, highTick, *]
    · simp [engineRegs, currentRow, rowRcvAddress, quietRow, byteDone, highTick, *]
  case rcvOffset =>
    by_cases hdone : r.counter = 8#4 <;>
      simp [engineRegs, currentRow, rowRcvOffset, quietRow, byteDone, rxOff, highTick, *]
  all_goals
    simp [engineRegs, currentRow, rowWaitStart, rowAckAddress0, rowAckAddress1, rowAckAddress2, rowAckOffset0, rowAckOffset1,
      rowAckOffset2, rowRead, rowAckRead, quietRow, highTick, *]

/-- The tick in which the samples show a START, in a state in which the high clock has nothing left to do: the counter is cleared,
`RCV_ADDRESS` is entered, and no row commands anything (42_edid_fsm.md R152, R166). -/
theorem Shows.tick_start (h : Shows s r u) (hstable : highTick r = r) (hstart : start u = true) (hclock : u.cur.sclI = true)
    (hprev : u.cur.sclR = true) (c d : Bool) :
    Shows s { r with state := .rcvAddress, counter := 0#4 } (busTick c d u) := by
  refine ⟨?_, (busTick_mem c d u).trans h.mem, busTick_enabled c d h.enabled⟩
  obtain ⟨hstate, hcount, hdin, hread, hoffset, hdrv, hbit⟩ := engineRegs_eq_iff.mp h.regs
  have hrise : sclRising u = false := by simp [sclRising, hprev]
  have hnext : nextState u = .rcvAddress := by simp [nextState, h.enabled.1, hstart]
  have hopen : r.state = .rcvAddress ∨ r.state = .rcvOffset → r.counter ≠ 8#4 := by
    rintro (hs | hs) hdone
    · have hmoved := congrArg Regs.state hstable
      by_cases hown : r.din.extractLsb' 1 7 = 0x50#7 <;> simp [highTick, hs, hdone, hown] at hmoved
    · have hmoved := congrArg Regs.state hstable
      simp [highTick, hs, hdone] at hmoved
  have hload : (currentRow u).ocLoad = false := by
    by_cases hs : r.state = .rcvOffset
    · simp [currentRow_ocLoad, byteDone, hcount, hopen (.inr hs)]
    · simp [currentRow_ocLoad, hstate, hs]
  have hlatch : (currentRow u).updateIsRead = false := by
    by_cases hs : r.state = .rcvAddress
    · simp [currentRow_updateIsRead, byteDone, hcount, hopen (.inl hs)]
    · simp [currentRow_updateIsRead, hstate, hs]
  rw [engineRegs_eq_iff, busTick_state, busTick_counter, busTick_din, busTick_isRead, busTick_offset, busTick_dataDrv,
    busTick_dataBit, hstart, hnext, hload, hlatch, currentRow_ocInc, currentRow_dataDrvEn, currentRow_dataDrvStop, hclock, hrise]
  simp [*]

end EngineTick

/-! ## One tick, with the event -/

section SettledTick
variable {s u : State} {r r' : Regs} {c d : Bool}

theorem bne_waitStart_congr {a b : EdidState} (h : a = .waitStart ↔ b = .waitStart) :
    (a != .waitStart) = (b != .waitStart) := by
  rw [Bool.eq_iff_iff, bne_iff_ne, bne_iff_ne, ne_eq, h]

/-- The event line is the same where `WAIT_START` is neither entered nor left (43_hpd_event_csr.md R198). -/
theorem Shows.evLine_eq {s' u' : State} (h : Shows s r u) (h' : Shows s' r' u')
    (hwaiting : r.state = .waitStart ↔ r'.state = .waitStart) : Machine.evLine u = Machine.evLine u' := by
  rw [h.evLine, h'.evLine, bne_waitStart_congr hwaiting]

theorem Shows.evLine_eq_start (h : Shows s r u) (hwaiting : r.state = .waitStart ↔ s.cur.state = .waitStart) :
    Machine.evLine u = Machine.evLine s := by
  rw [h.evLine, Machine.evLine, bne_waitStart_congr hwaiting]

theorem Settled.tick (h : Settled s r u) (h' : Shows s r' (busTick c d u))
    (hwaiting : r'.state = .waitStart ↔ r.state = .waitStart) : Settled s r' (busTick c d u) :=
  ⟨h', eventFollows_tick c d h.event h.enabled (h'.evLine_eq h.toShows hwaiting)⟩

theorem Settled.tick_low (h : Settled s r u) (hframe : InFrame r) (hclock : u.cur.sclI = false) :
    Settled s (lowTick s r) (busTick c d u) :=
  h.tick (h.toShows.tick_low hframe hclock c d) (lowTick_waiting s r)

theorem Settled.tick_high (h : Settled s r u) (hstable : highTick r = r) (hstart : start u = false) (hclock : u.cur.sclI = true)
    (hprev : u.cur.sclR = true) : Settled s r (busTick c d u) :=
  h.tick (hstable ▸ h.toShows.tick_high hstart hclock hprev c d) Iff.rfl

end SettledTick

/-! ## The lines over a hold -/

section Lines
variable {s u : State} {r : Regs} {c d v : Bool}

theorem clockAt_tick (h : ClockAt c u) : ClockAt c (busTick c d u) :=
  (holdLines_still (P := fun _ => True) 1 h trivial fun _ _ _ _ => trivial).1

/-- The data line carries what its stages and samples show already. -/
theorem dataAt_tick (h : DataAt v u) (hline : sdaLine d u = v) : DataAt v (busTick c d u) := by
  obtain ⟨hs1, hs2, hI, -⟩ := h
  refine ⟨hline, hs1, ?_, hI⟩
  rw [busTick_sdaI]
  split
  · exact hs2
  · exact hI

theorem start_of_dataAt (h : DataAt v u) : start u = false := start_of_same (h.2.2.2.trans h.2.2.1.symm)

/-- A line that carries `v` for more than a sampling period leaves every stage and sample of the data line at `v`. -/
theorem holdLines_dataAt {n : Nat} (hlong : 67 ≤ n) (hshort : n ≤ Config.quarter)
    (hline : ∀ k, sdaLine d (holdLines k c d u) = v) : DataAt v (holdLines n c d u) := by
  obtain ⟨j, h2, h65, hcarry, -⟩ := carry_exists u.cur.sampCount
  have hsample := data_after h2 (fun k _ => hline k) hcarry
  obtain ⟨m, rfl⟩ : ∃ m, n = j + 1 + m + 1 := ⟨n - j - 2, by omega⟩
  refine ⟨?_, ?_, hsample (m + 1) hshort, ?_⟩
  · exact holdLines_sdaS1 (hline _)
  · obtain ⟨k, hk⟩ : ∃ k, j + 1 + m + 1 = k + 2 := ⟨j + m, by omega⟩
    rw [hk]
    exact holdLines_sdaS2 (hline _)
  · rw [holdLines_succ, busTick_sdaR]
    exact hsample m (by omega)

end Lines

/-! ## A quarter of a bit period -/

section Quarter
variable {s u : State} {r : Regs} {d v : Bool}

theorem holdLines_low (k : Nat) (h : Settled s r u) (hframe : InFrame r) (hclock : ClockLow u) :
    ClockLow (holdLines k false d u) ∧ Settled s ((lowTick s)^[k] r) (holdLines k false d u) := by
  induction k generalizing u r with
  | zero => exact ⟨hclock, h⟩
  | succ k ih =>
    rw [Function.iterate_succ_apply]
    exact ih (h.tick_low hframe hclock.2.2.1) (inFrame_lowTick s hframe) (clockAt_tick hclock)

/-- The clock stands low: the rows that wait for the low clock act in the first two ticks, after which the data line stands
still. -/
theorem quarter_low (h : Settled s r u) (hframe : InFrame r) (hclock : ClockLow u) :
    ClockLow (quarter false d u) ∧ DataAt (d && !pulls (lowPhase s r)) (quarter false d u) ∧
      Settled s (lowPhase s r) (quarter false d u) := by
  have hlow : ∀ k, Settled s (lowPhase s r) (holdLines k false d (holdLines 2 false d u)) := by
    intro k
    rw [← holdLines_add, Nat.add_comm, ← lowTick_iterate s r k]
    exact (holdLines_low (k + 2) h hframe hclock).2
  have hsplit : quarter false d u = holdLines 126 false d (holdLines 2 false d u) := holdLines_add 2 126 false d u
  refine ⟨(holdLines_low _ h hframe hclock).1, ?_, hsplit ▸ hlow 126⟩
  rw [hsplit]
  exact holdLines_dataAt (by decide) (by decide) fun k => (hlow k).sdaLine d

/-- A tick in which both lines stand still, the clock high. -/
theorem Settled.tick_high_dataAt {c : Bool} (h : Settled s r u) (hstable : highTick r = r) (hclock : u.cur.sclI = true)
    (hprev : u.cur.sclR = true) (hdata : DataAt v u) (hline : v = (d && !pulls r)) :
    Settled s r (busTick c d u) ∧ DataAt v (busTick c d u) :=
  ⟨h.tick_high hstable (start_of_dataAt hdata) hclock hprev, dataAt_tick hdata ((h.sdaLine d).trans hline.symm)⟩

/-- The clock falls. -/
theorem quarter_fall (h : Settled s r u) (hframe : InFrame r) (hstable : highTick r = r) (hclock : ClockAt true u)
    (hdata : DataAt v u) (hline : v = (d && !pulls r)) :
    ClockLow (quarter false d u) ∧ Settled s (lowPhase s r) (quarter false d u) := by
  obtain ⟨hlow, n, hlong, hafter⟩ := quarter_edge (c := false) (d := d)
    (P := fun u => Settled s r u ∧ DataAt v u) (R := fun n u => Settled s ((lowTick s)^[n + 1] r) u) hclock ⟨h, hdata⟩
    (fun _ ⟨h, hdata⟩ hI hR => h.tick_high_dataAt hstable hI hR hdata hline)
    (fun u ⟨h, _⟩ hI _ _ => h.tick_low hframe hI)
    (fun n u h hI _ => by
      rw [Function.iterate_succ_apply']
      exact h.tick_low (inFrame_lowTick_iterate s (n + 1) hframe) hI)
  obtain ⟨m, rfl⟩ : ∃ m, n = m + 1 := ⟨n - 1, by omega⟩
  rw [lowTick_iterate] at hafter
  exact ⟨hlow, hafter⟩

/-- The clock stands high, and so does the data line. -/
theorem quarter_high (h : Settled s r u) (hstable : highTick r = r) (hclock : ClockAt true u)
    (hdata : DataAt v u) (hline : v = (d && !pulls r)) :
    ClockAt true (quarter true d u) ∧ DataAt v (quarter true d u) ∧ Settled s r (quarter true d u) := by
  obtain ⟨hhigh, hsettled, hdata⟩ := quarter_still (c := true) (d := d) (P := fun u => Settled s r u ∧ DataAt v u)
    hclock ⟨h, hdata⟩
    (fun _ ⟨h, hdata⟩ hI hR => h.tick_high_dataAt hstable hI hR hdata hline)
  exact ⟨hhigh, hdata, hsettled⟩

/-- What is so in the `n`-th tick after a pulse that makes the engine's registers `first`, and a tick later `rest`: the event
block sees an event of the first tick in the second, and one of the second in the third. -/
def AfterPulse (s : State) (first rest : Regs) : Nat → State → Prop
  | 0, u => Shows s first u ∧ EventBehind s u
  | 1, u => Shows s rest u ∧ (EventBehind s u ∨ EventFollows s u)
  | _ + 2, u => Settled s rest u

section AfterPulse
variable {first rest : Regs} {n : Nat}

theorem afterPulse_shows (h : AfterPulse s first rest n u) : Shows s first u ∨ Shows s rest u :=
  match n, h with
  | 0, h => .inl h.1
  | 1, h => .inr h.1
  | _ + 2, h => .inr h.toShows

theorem afterPulse_settled (h : AfterPulse s first rest n u) (hlong : 61 ≤ n) : Settled s rest u :=
  match n, h, hlong with
  | _ + 2, h, _ => h

/-- `WAIT_START` is entered or left in one of the two ticks at most. -/
theorem afterPulse_next (h : AfterPulse s first rest n u) (hfirst : highTick first = rest) (hrest : highTick rest = rest)
    (hevent : (first.state = .waitStart ↔ s.cur.state = .waitStart) ∨ rest = first) (hstart : start u = false)
    (hclock : u.cur.sclI = true) (hprev : u.cur.sclR = true) : AfterPulse s first rest (n + 1) (busTick true d u) := by
  match n, h with
  | 0, ⟨hshows, hbehind⟩ =>
    have hnext := hfirst ▸ hshows.tick_high hstart hclock hprev true d
    refine ⟨hnext, hevent.imp (fun hsame => ?_) fun heq => ?_⟩
    · exact hbehind.tick_kept true d hshows.enabled (hshows.evLine_eq_start hsame)
    · exact hbehind.tick_follows true d hshows.enabled (hnext.evLine_eq hshows (heq ▸ Iff.rfl))
  | 1, ⟨hshows, hevents⟩ =>
    have hnext := hrest ▸ hshows.tick_high hstart hclock hprev true d
    have hstill := hnext.evLine_eq hshows Iff.rfl
    refine ⟨hnext, hevents.elim (fun hbehind => ?_) fun hfollows => ?_⟩
    · exact hbehind.tick_follows true d hshows.enabled hstill
    · exact eventFollows_tick true d hfollows hshows.enabled hstill
  | _ + 2, h => exact Settled.tick_high h hrest hstart hclock hprev

end AfterPulse

/-- The clock rises: the engine takes a bit. -/
theorem quarter_rise (h : Settled s r u) (hframe : InFrame r) (hsettled : lowTick s r = r) (hclock : ClockLow u)
    (hdata : DataAt v u) (hline : v = (d && !pulls r)) (hwaiting : r.state = .waitStart ↔ s.cur.state = .waitStart) :
    ClockAt true (quarter true d u) ∧ DataAt v (quarter true d u) ∧ Settled s (highPhase v r) (quarter true d u) := by
  have hevent : ((riseTick v r).state = .waitStart ↔ s.cur.state = .waitStart) ∨ highPhase v r = riseTick v r := by
    rw [← highTick_riseTick hframe, ← hwaiting]
    exact riseTick_waiting_or v r
  obtain ⟨hhigh, n, hlong, hafter, hdata⟩ := quarter_edge (c := true) (d := d)
    (P := fun u => Settled s r u ∧ DataAt v u)
    (R := fun n u => AfterPulse s (riseTick v r) (highPhase v r) n u ∧ DataAt v u) hclock ⟨h, hdata⟩
    (fun u ⟨h, hdata⟩ hI hR => ⟨hsettled ▸ h.tick_low hframe hI, dataAt_tick hdata ((h.sdaLine d).trans hline.symm)⟩)
    (fun u ⟨h, hdata⟩ hI hR _ => by
      have hline_start := h.evLine_eq_start hwaiting
      refine ⟨⟨?_, (eventBehind_of_follows h.event hline_start).tick_kept true d h.enabled hline_start⟩,
        dataAt_tick hdata ((h.sdaLine d).trans hline.symm)⟩
      exact hdata.2.2.1 ▸ h.toShows.tick_rise hframe (start_of_dataAt hdata) hI hR true d)
    (fun n u ⟨h, hdata⟩ hI hR => by
      refine ⟨afterPulse_next h (highTick_riseTick hframe) (highTick_highPhase v r) hevent (start_of_dataAt hdata) hI hR,
        dataAt_tick hdata ?_⟩
      rcases afterPulse_shows h with h | h
      · rw [h.sdaLine, pulls_riseTick, hline]
      · rw [h.sdaLine, pulls_highPhase v hframe, hline])
  exact ⟨hhigh, hdata, afterPulse_settled hafter hlong⟩

/-- The data line falls while the clock stands high: a START (42_edid_fsm.md R152). -/
theorem quarter_start (h : Settled s r u) (hstable : highTick r = r) (hclock : ClockAt true u) (hdata : DataAt true u)
    (hwaiting : r.state = .waitStart ↔ s.cur.state = .waitStart) :
    ClockAt true (quarter true false u) ∧ DataAt false (quarter true false u) ∧
      Settled s { r with state := .rcvAddress, counter := 0#4 } (quarter true false u) := by
  obtain ⟨hhigh, hlow, n, hlong, hafter⟩ := quarter_data_edge (c := true) (d := false) (v := false)
    (P := Settled s r)
    (R := AfterPulse s { r with state := .rcvAddress, counter := 0#4 } { r with state := .rcvAddress, counter := 0#4 })
    hclock hdata (fun _ _ => rfl) h
    (fun u h hclock hI hR => h.tick_high hstable (start_of_same (hR.trans hI.symm)) hclock.2.2.1 hclock.2.2.2)
    (fun u h hclock hI hR => by
      have hline_start := h.evLine_eq_start hwaiting
      have hstart : start u = true := by simp [start, sdaFalling, hclock.2.2.1, hI, hR]
      exact ⟨h.toShows.tick_start hstable hstart hclock.2.2.1 hclock.2.2.2 true false,
        (eventBehind_of_follows h.event hline_start).tick_kept true false h.enabled hline_start⟩)
    (fun n u h hclock hI hR =>
      afterPulse_next h rfl rfl (.inr rfl) (start_of_same (hR.trans hI.symm)) hclock.2.2.1 hclock.2.2.2)
  exact ⟨hhigh, hlow, afterPulse_settled hafter hlong⟩

/-- The data line's stages and samples show no fall, and none is on its way. -/
def NoFall (u : State) : Prop :=
  (u.cur.sdaR = true → u.cur.sdaI = true) ∧ (u.cur.sdaI = true → u.cur.sdaS2 = true) ∧
    (u.cur.sdaS2 = true → u.cur.sdaS1 = true)

theorem start_of_noFall (h : NoFall u) : start u = false := by
  cases hR : u.cur.sdaR
  · simp [start, sdaFalling, hR]
  · simp [start, sdaFalling, h.1 hR]

theorem noFall_tick (h : NoFall u) (hline : sdaLine d u = true) : NoFall (busTick true d u) := by
  obtain ⟨hRI, hIS2, hS2S1⟩ := h
  refine ⟨?_, ?_, fun _ => hline⟩ <;> rw [busTick_sdaI] <;> split
  · exact fun hI => hIS2 hI
  · exact id
  · exact hS2S1
  · exact fun hI => hS2S1 (hIS2 hI)

/-- The master releases the data line while the clock stands high. -/
theorem quarter_release (h : Settled s r u) (hstable : highTick r = r) (hclock : ClockAt true u) (hdata : DataAt false u)
    (hfree : pulls r = false) :
    ClockAt true (quarter true true u) ∧ DataAt true (quarter true true u) ∧ Settled s r (quarter true true u) := by
  have hnoFall : NoFall u := by
    obtain ⟨-, hs2, hI, hR⟩ := hdata
    simp [NoFall, hs2, hI, hR]
  have hline : ∀ {u}, Settled s r u → sdaLine true u = true := fun h => by rw [h.sdaLine, hfree]; rfl
  have hheld : ∀ k, ClockAt true (holdLines k true true u) ∧
      Settled s r (holdLines k true true u) ∧ NoFall (holdLines k true true u) := fun k =>
    holdLines_still (P := fun u => Settled s r u ∧ NoFall u) k hclock ⟨h, hnoFall⟩ fun _ ⟨h, hnoFall⟩ hI hR =>
      ⟨h.tick_high hstable (start_of_noFall hnoFall) hI hR, noFall_tick hnoFall (hline h)⟩
  obtain ⟨hhigh, hsettled, -⟩ := hheld Config.quarter
  exact ⟨hhigh, holdLines_dataAt (by decide) le_rfl fun k => hline (hheld k).2.1, hsettled⟩

end Quarter

end Sys2Proof.Proofs
end

section
/-! PROOFS. Proofs/BusOperations.lean: what the master's operations make of the engine: a clock period, START, STOP, a byte
sent, a byte read (42_edid_fsm.md part 2). -/

namespace Sys2Proof.Proofs

open Sys2Proof.Machine Sys2Proof.Safety Sys2Proof.Laws

/-! ## A clock period -/

section Period
variable {s u : State} {r : Regs} {d v : Bool}

/-- The half of a clock period up to the high clock: the low phase, and the rising edge with what the line then carries. -/
theorem halfPeriod_rise (h : Settled s r u) (hframe : InFrame r) (hclock : ClockLow u)
    (hwaiting : r.state = .waitStart ↔ s.cur.state = .waitStart) (hline : v = (d && !pulls (lowPhase s r))) :
    ClockAt true (quarter true d (quarter false d u)) ∧ DataAt v (quarter true d (quarter false d u)) ∧
      Settled s (highPhase v (lowPhase s r)) (quarter true d (quarter false d u)) := by
  obtain ⟨hlow, hdata, hsettled⟩ := quarter_low (d := d) h hframe hclock
  exact quarter_rise hsettled (inFrame_lowPhase s hframe) (lowTick_lowPhase s r) hlow (hline ▸ hdata) hline
    ((lowPhase_waiting s r).trans hwaiting)

/-- The other half: the high clock, and the low phase after it. -/
theorem halfPeriod_fall (h : Settled s r u) (hframe : InFrame r) (hstable : highTick r = r) (hclock : ClockAt true u)
    (hdata : DataAt v u) (hline : v = (d && !pulls r)) :
    ClockLow (quarter false d (quarter true d u)) ∧ Settled s (lowPhase s r) (quarter false d (quarter true d u)) := by
  obtain ⟨hhigh, hdata, hsettled⟩ := quarter_high h hstable hclock hdata hline
  exact quarter_fall hsettled hframe hstable hhigh hdata hline

/-- A whole period, with the state at the reading point. -/
theorem clockPeriod_settled (h : Settled s r u) (hframe : InFrame r) (hclock : ClockLow u)
    (hwaiting : r.state = .waitStart ↔ s.cur.state = .waitStart) (hline : v = (d && !pulls (lowPhase s r))) :
    let point := quarter true d (quarter false d u)
    let t := quarter false d (quarter true d point)
    sdaLine d point = v ∧ ClockLow t ∧ Settled s (lowPhase s (highPhase v (lowPhase s r))) t := by
  have hlow := inFrame_lowPhase s hframe
  obtain ⟨hhigh, hdata, hsettled⟩ := halfPeriod_rise h hframe hclock hwaiting hline
  have hline' : v = (d && !pulls (highPhase v (lowPhase s r))) := by rwa [pulls_highPhase v hlow]
  obtain ⟨hfallen, hsettled'⟩ := halfPeriod_fall hsettled (inFrame_highPhase v hlow (not_waitsForLow_lowPhase s r))
    (highTick_highPhase v _) hhigh hdata hline'
  exact ⟨(hsettled.sdaLine d).trans hline'.symm, hfallen, hsettled'⟩

theorem sendBit_settled (h : Settled s r u) (hframe : InFrame r) (hclock : ClockLow u)
    (hwaiting : r.state = .waitStart ↔ s.cur.state = .waitStart) (hline : v = (d && !pulls (lowPhase s r))) :
    ClockLow (sendBit d u) ∧ Settled s (lowPhase s (highPhase v (lowPhase s r))) (sendBit d u) :=
  (clockPeriod_settled h hframe hclock hwaiting hline).2

/-- A period in which the master reads. -/
theorem readPeriod_settled (h : Settled s r u) (hframe : InFrame r) (hclock : ClockLow u)
    (hwaiting : r.state = .waitStart ↔ s.cur.state = .waitStart) (hline : v = !pulls (lowPhase s r)) :
    sdaLine true (readPoint u) = v ∧ ClockLow (afterRead (readPoint u)) ∧
      Settled s (lowPhase s (highPhase v (lowPhase s r))) (afterRead (readPoint u)) :=
  clockPeriod_settled h hframe hclock hwaiting hline

theorem settled_withMasterByte (h : Settled s r u) (b : Byte) : Settled s r { u with masterByte := b } :=
  ⟨⟨h.regs, h.mem, h.enabled⟩, h.event⟩

theorem settled_withMasterAck (h : Settled s r u) (b : Bool) : Settled s r { u with masterAck := b } :=
  ⟨⟨h.regs, h.mem, h.enabled⟩, h.event⟩

theorem readBit_eq (u : State) : readBit u = { afterRead (readPoint u) with
    masterByte := BitVec.concat (u.masterByte.extractLsb' 0 7) (sdaLine true (readPoint u)) } := by
  have hkept : (afterRead (readPoint u)).masterByte = u.masterByte := by simp [afterRead, readPoint, quarter]
  rw [readBit, hkept]

theorem readBit_settled (h : Settled s r u) (hframe : InFrame r) (hclock : ClockLow u)
    (hwaiting : r.state = .waitStart ↔ s.cur.state = .waitStart) (hline : v = !pulls (lowPhase s r)) :
    ClockLow (readBit u) ∧ Settled s (lowPhase s (highPhase v (lowPhase s r))) (readBit u) ∧
      (readBit u).masterByte = BitVec.concat (u.masterByte.extractLsb' 0 7) v := by
  obtain ⟨hread, hlow, hsettled⟩ := readPeriod_settled h hframe hclock hwaiting hline
  rw [readBit_eq, hread]
  generalize afterRead (readPoint u) = e at hlow hsettled ⊢
  exact ⟨hlow, settled_withMasterByte hsettled _, rfl⟩

theorem readAck_settled (h : Settled s r u) (hframe : InFrame r) (hclock : ClockLow u)
    (hwaiting : r.state = .waitStart ↔ s.cur.state = .waitStart) (hline : v = !pulls (lowPhase s r)) :
    ClockLow (readAck u) ∧ Settled s (lowPhase s (highPhase v (lowPhase s r))) (readAck u) ∧ (readAck u).masterAck = v := by
  obtain ⟨hread, hlow, hsettled⟩ := readPeriod_settled h hframe hclock hwaiting hline
  rw [readAck, hread]
  generalize afterRead (readPoint u) = e at hlow hsettled ⊢
  exact ⟨hlow, settled_withMasterAck hsettled _, rfl⟩

end Period

/-! ## START and STOP -/

section Conditions
variable {s u : State} {r : Regs}

/-- The data line falls while the clock is high, then the clock falls. -/
theorem start_fall_settled (h : Settled s r u) (hstable : highTick r = r) (hclock : ClockAt true u) (hdata : DataAt true u)
    (hwaiting : r.state = .waitStart ↔ s.cur.state = .waitStart) :
    ClockLow (quarter false false (quarter true false u)) ∧
      Settled s { r with state := .rcvAddress, counter := 0#4 } (quarter false false (quarter true false u)) := by
  obtain ⟨hhigh, hlow, hsettled⟩ := quarter_start h hstable hclock hdata hwaiting
  exact quarter_fall hsettled ⟨Nat.zero_le 8, fun _ => by simp, by simp⟩ rfl hhigh hlow rfl

theorem startCondition_settled (hidle : BusIdle s) (hen : Enabled s) (hedge : NoEdge s) (hstable : highTick s.cur = s.cur) :
    ClockLow (startCondition s) ∧ Settled s { s.cur with state := .rcvAddress, counter := 0#4 } (startCondition s) :=
  start_fall_settled (settled_refl hen hedge) hstable hidle.1 hidle.2 Iff.rfl

/-- A repeated START that the engine does not hold off: a clock period's first half with a 1, then the START. -/
theorem repeatedStart_settled (hclock : ClockLow s) (hen : Enabled s) (hedge : NoEdge s) (hframe : InFrame s.cur)
    (hfree : pulls (lowPhase s s.cur) = false)
    (hwaiting : (highPhase true (lowPhase s s.cur)).state = .waitStart ↔ s.cur.state = .waitStart) :
    ClockLow (repeatedStart s) ∧
      Settled s { highPhase true (lowPhase s s.cur) with state := .rcvAddress, counter := 0#4 } (repeatedStart s) := by
  obtain ⟨hhigh, hdata, hsettled⟩ :=
    halfPeriod_rise (d := true) (v := true) (settled_refl hen hedge) hframe hclock Iff.rfl (by simp [hfree])
  exact start_fall_settled hsettled (highTick_highPhase true _) hhigh hdata hwaiting

/-- STOP, where the engine leaves the data line high: a clock period's first half with a 0, and an idle bus. -/
theorem stopCondition_settled (hclock : ClockLow s) (hen : Enabled s) (hedge : NoEdge s) (hframe : InFrame s.cur)
    (hfree : pulls (lowPhase s s.cur) = false) :
    BusIdle (stopCondition s) ∧ Settled s (highPhase false (lowPhase s s.cur)) (stopCondition s) := by
  obtain ⟨hhigh, hdata, hsettled⟩ :=
    halfPeriod_rise (d := false) (v := false) (settled_refl hen hedge) hframe hclock Iff.rfl rfl
  obtain ⟨hhigh, hdata, hsettled⟩ := quarter_release hsettled (highTick_highPhase false _) hhigh hdata
    (by rwa [pulls_highPhase false (inFrame_lowPhase s hframe)])
  exact ⟨⟨hhigh, hdata⟩, hsettled⟩

end Conditions

/-! ## Bits and bytes (20_memory.md R65, 41_byte_engine.md R131) -/

/-- Bits shifted into a byte one after the other, most significant first. -/
def shiftIn (b : Byte) (bits : List Bool) : Byte := bits.foldl (fun b bit => BitVec.concat (b.extractLsb' 0 7) bit) b

theorem shiftIn_append (b : Byte) (bits : List Bool) (bit : Bool) :
    shiftIn b (bits ++ [bit]) = BitVec.concat ((shiftIn b bits).extractLsb' 0 7) bit := by
  simp [shiftIn]

/-- Eight bits replace the byte. -/
theorem shiftIn_wireBits (old b : Byte) : shiftIn old (wireBits b) = b := by
  apply BitVec.eq_of_getLsbD_eq
  intro i hi
  simp only [shiftIn, wireBits, List.foldl_cons, List.foldl_nil, BitVec.getLsbD_concat, BitVec.getLsbD_extractLsb']
  match i, hi with
  | 0, _ | 1, _ | 2, _ | 3, _ | 4, _ | 5, _ | 6, _ | 7, _ => simp

theorem wireBits_getElem (b : Byte) {j : Nat} (hj : j < 8) : (wireBits b)[j]? = some (b.getLsbD (7 - j)) := by
  match j, hj with
  | 0, _ | 1, _ | 2, _ | 3, _ | 4, _ | 5, _ | 6, _ | 7, _ => rfl

theorem take_wireBits_succ (b : Byte) {j : Nat} (hj : j < 8) :
    (wireBits b).take (j + 1) = (wireBits b).take j ++ [b.getLsbD (7 - j)] := by
  rw [List.take_add_one, wireBits_getElem b hj]; rfl

/-! ## A byte received -/

section Receive
variable {s u : State} {r : Regs}

/-- The engine's registers after it has received bits. -/
def received (bits : List Bool) (r : Regs) : Regs :=
  { r with counter := r.counter + BitVec.ofNat 4 bits.length, din := shiftIn r.din bits }

theorem received_nil (r : Regs) : received [] r = r := by simp [received, shiftIn]

theorem received_cons (bit : Bool) (bits : List Bool) {r : Regs} (h : r.counter ≠ 8#4) :
    received (bit :: bits) r = received bits (countBit bit r) := by
  have hcount : r.counter + BitVec.ofNat 4 (bits.length + 1) = r.counter + 1#4 + BitVec.ofNat 4 bits.length := by
    rw [BitVec.add_assoc]; congr 1; apply BitVec.eq_of_toNat_eq; simp [Nat.add_comm]
  simp [received, countBit, shiftIn, h, hcount]

/-- The states that take in a byte. -/
def Receiving (r : Regs) : Prop := r.state = .rcvAddress ∨ r.state = .rcvOffset

theorem lowPhase_of_receiving (s : State) (h : Receiving r) : lowPhase s r = r := by
  rcases h with h | h <;> simp [lowPhase, h]

theorem riseTick_of_receiving (bit : Bool) (h : Receiving r) : riseTick bit r = countBit bit r := by
  rcases h with h | h <;> simp [riseTick, h]

theorem inFrame_of_receiving (h : Receiving r) (hcounter : r.counter.toNat < 8) : InFrame r := by
  refine ⟨Nat.le_of_lt hcounter, fun _ => by bv_omega, fun hack => ?_⟩
  rcases h with h | h <;> simp [h] at hack

/-- One bit of a byte. -/
theorem sendBit_receiving (bit : Bool) (h : Settled s r u) (hclock : ClockLow u) (hrecv : Receiving r)
    (hcounter : r.counter.toNat < 8) (hfree : pulls r = false) (hstarted : s.cur.state ≠ .waitStart) :
    ClockLow (sendBit bit u) ∧ Settled s (lowPhase s (highTick (countBit bit r))) (sendBit bit u) := by
  have hframe := inFrame_of_receiving hrecv hcounter
  have hbusy : r.state = .waitStart ↔ s.cur.state = .waitStart := by rcases hrecv with h | h <;> simp [h, hstarted]
  have hsent := sendBit_settled (d := bit) (v := bit) h hframe hclock hbusy (by rw [lowPhase_of_receiving s hrecv, hfree]; simp)
  rwa [lowPhase_of_receiving s hrecv, ← highTick_riseTick hframe, riseTick_of_receiving bit hrecv] at hsent

/-- Bits that do not complete the byte. -/
theorem sendBits_receiving (bits : List Bool) {r : Regs} {u : State} (h : Settled s r u) (hclock : ClockLow u)
    (hrecv : Receiving r) (hcounter : r.counter.toNat + bits.length < 8) (hfree : pulls r = false)
    (hstarted : s.cur.state ≠ .waitStart) :
    ClockLow (sendBits bits u) ∧ Settled s (received bits r) (sendBits bits u) := by
  induction bits generalizing r u with
  | nil => rw [received_nil]; exact ⟨hclock, h⟩
  | cons bit bits ih =>
    rw [List.length_cons] at hcounter
    have hopen : r.counter ≠ 8#4 := by bv_omega
    have hcount : (countBit bit r).counter = r.counter + 1#4 := by simp [countBit, hopen]
    have hrecv' : Receiving (countBit bit r) := by simpa [Receiving] using hrecv
    have hopen' : (countBit bit r).counter ≠ 8#4 := by rw [hcount]; bv_omega
    have hstay : lowPhase s (highTick (countBit bit r)) = countBit bit r := by
      have hhigh : highTick (countBit bit r) = countBit bit r := by rcases hrecv with h | h <;> simp [highTick, h, hopen']
      rw [hhigh, lowPhase_of_receiving s hrecv']
    obtain ⟨hlow, hsettled⟩ := sendBit_receiving bit h hclock hrecv (by omega) hfree hstarted
    rw [hstay] at hsettled
    rw [received_cons bit bits hopen]
    exact ih hsettled hlow hrecv' (by rw [hcount]; bv_omega) (by rw [pulls_countBit, hfree])

theorem sendBits_append (bs cs : List Bool) (s : State) : sendBits (bs ++ cs) s = sendBits cs (sendBits bs s) := by
  induction bs generalizing s with
  | nil => rfl
  | cons b bs ih => exact ih (sendBit b s)

/-- A whole byte: it stands in the shift register, the counter at 8, and the row that waits for it has acted. -/
theorem sendBits_byte (b : Byte) (h : Settled s r u) (hclock : ClockLow u) (hrecv : Receiving r) (hcounter : r.counter = 0#4)
    (hfree : pulls r = false) (hstarted : s.cur.state ≠ .waitStart) :
    ClockLow (sendBits (wireBits b) u) ∧
      Settled s (lowPhase s (highTick { r with counter := 8#4, din := b })) (sendBits (wireBits b) u) := by
  have hsplit : wireBits b = (wireBits b).take 7 ++ [b.getLsbD 0] := rfl
  have hseven : ((wireBits b).take 7).length = 7 := rfl
  obtain ⟨hlow, hsettled⟩ :=
    sendBits_receiving ((wireBits b).take 7) h hclock hrecv (by simp [hcounter, hseven]) hfree hstarted
  have hbyte : countBit (b.getLsbD 0) (received ((wireBits b).take 7) r) = { r with counter := 8#4, din := b } := by
    have hdin := shiftIn_append r.din ((wireBits b).take 7) (b.getLsbD 0)
    rw [← hsplit, shiftIn_wireBits] at hdin
    simpa [countBit, received, hcounter, hseven] using hdin.symm
  rw [hsplit, sendBits_append, ← hbyte]
  exact sendBit_receiving _ hsettled hlow hrecv (by simp [received, hcounter, hseven]) hfree hstarted

/-- The engine's own address is acknowledged (42_edid_fsm.md R154 to R157). -/
theorem sendByte_own (b : Byte) (h : Settled s r u) (hclock : ClockLow u) (hstate : r.state = .rcvAddress)
    (hcounter : r.counter = 0#4) (hfree : pulls r = false) (hstarted : s.cur.state ≠ .waitStart)
    (hown : b.extractLsb' 1 7 = 0x50#7) :
    ClockLow (sendByte b u) ∧
      Settled s (lowPhase s { r with state := .ackAddress2, counter := 0#4, din := b, isRead := b.getLsbD 0 }) (sendByte b u) ∧
      (sendByte b u).masterAck = false := by
  obtain ⟨hlow, hsettled⟩ := sendBits_byte b h hclock (.inl hstate) hcounter hfree hstarted
  have htaken : lowPhase s (highTick { r with counter := 8#4, din := b }) =
      { r with state := .ackAddress1, counter := 8#4, din := b, isRead := b.getLsbD 0 } := by
    simp [highTick, hstate, hown, lowPhase]
  rw [htaken] at hsettled
  exact readAck_settled (v := false) hsettled ⟨by simp, by simp, by simp⟩ hlow (by simp [hstarted])
    (by simp [lowPhase, pulls])

/-- An offset byte is loaded and acknowledged (42_edid_fsm.md R160 to R163). -/
theorem sendByte_offset (b : Byte) (h : Settled s r u) (hclock : ClockLow u) (hstate : r.state = .rcvOffset)
    (hcounter : r.counter = 0#4) (hfree : pulls r = false) (hstarted : s.cur.state ≠ .waitStart) :
    ClockLow (sendByte b u) ∧
      Settled s { r with state := .rcvAddress, counter := 0#4, din := b, offset := b.extractLsb' 0 7 } (sendByte b u) ∧
      (sendByte b u).masterAck = false := by
  obtain ⟨hlow, hsettled⟩ := sendBits_byte b h hclock (.inr hstate) hcounter hfree hstarted
  have htaken : lowPhase s (highTick { r with counter := 8#4, din := b }) =
      { r with state := .ackOffset1, counter := 8#4, din := b, offset := b.extractLsb' 0 7 } := by
    simp [highTick, hstate, lowPhase]
  rw [htaken] at hsettled
  exact readAck_settled (v := false) hsettled ⟨by simp, by simp, by simp⟩ hlow (by simp [hstarted])
    (by simp [lowPhase, pulls])

end Receive

/-! ## A byte read -/

section Read
variable {s u : State} {r : Regs}

/-- The engine's registers with the clock low and `j` bits of the byte at the offset read: the next bit is presented, or, after
the eighth, the line is released (42_edid_fsm.md R164). -/
def reading (s : State) (r : Regs) (j : Nat) : Regs :=
  { r with
    state := if j < 8 then .read else .ackRead
    counter := BitVec.ofNat 4 j
    din := shiftIn r.din ((wireBits (memRead s r.offset)).take j)
    dataDrv := decide (j < 8)
    dataBit := (memRead s r.offset).getLsbD (7 - j) }

theorem ofNat_counter_ne {j : Nat} (hj : j < 8) : BitVec.ofNat 4 j ≠ 8#4 := by
  intro h
  have := congrArg BitVec.toNat h
  simp at this
  omega

theorem lowPhase_of_read (s : State) (hstate : r.state = .read) (hcounter : r.counter = 0#4) :
    lowPhase s r = reading s r 0 := by
  simp [lowPhase_eq_readLow s (.inl hstate), readLow, reading, hcounter, shiftIn]

theorem reading_succ (s : State) (r : Regs) {j : Nat} (hj : j < 8) :
    lowPhase s (highPhase ((memRead s r.offset).getLsbD (7 - j)) (reading s r j)) = reading s r (j + 1) := by
  have hcount : BitVec.ofNat 4 j + 1#4 = BitVec.ofNat 4 (j + 1) := by
    apply BitVec.eq_of_toNat_eq; simp
  have hhigh : highPhase ((memRead s r.offset).getLsbD (7 - j)) (reading s r j) =
      { reading s r j with
        counter := BitVec.ofNat 4 (j + 1)
        din := shiftIn r.din ((wireBits (memRead s r.offset)).take (j + 1)) } := by
    simp [highPhase, countBit, reading, hj, ofNat_counter_ne hj, hcount, take_wireBits_succ _ hj, shiftIn_append]
  rw [hhigh, lowPhase_eq_readLow s (.inl (by simp [reading, hj]))]
  by_cases hlast : j + 1 < 8
  · have hj7 : (j + 1) % 16 = j + 1 := by omega
    simp [readLow, reading, hj, hlast, ofNat_counter_ne hlast, hj7]
  · obtain rfl : j = 7 := by omega
    simp [readLow, reading]

theorem readBit_reading {j : Nat} (hj : j < 8) (r₀ : Regs) (h : Settled s r u) (hframe : InFrame r) (hclock : ClockLow u)
    (hlow : lowPhase s r = reading s r₀ j) (hbusy : r.state ≠ .waitStart) (hstarted : s.cur.state ≠ .waitStart) :
    ClockLow (readBit u) ∧ Settled s (reading s r₀ (j + 1)) (readBit u) ∧
      (readBit u).masterByte = BitVec.concat (u.masterByte.extractLsb' 0 7) ((memRead s r₀.offset).getLsbD (7 - j)) := by
  have hline : (memRead s r₀.offset).getLsbD (7 - j) = !pulls (lowPhase s r) := by
    simp [hlow, pulls, reading, hj]
  have hread := readBit_settled h hframe hclock (iff_of_false hbusy hstarted) hline
  rwa [hlow, reading_succ s r₀ hj] at hread

/-- The rest of the byte, bit after bit. -/
theorem readBits_reading (k : Nat) {j : Nat} (hk : j + k = 8) (old : Byte) (h : Settled s (reading s r j) u)
    (hclock : ClockLow u) (hstarted : s.cur.state ≠ .waitStart)
    (hbyte : u.masterByte = shiftIn old ((wireBits (memRead s r.offset)).take j)) :
    ClockLow (readBits k u) ∧ Settled s (reading s r 8) (readBits k u) ∧ (readBits k u).masterByte = memRead s r.offset := by
  induction k generalizing j u with
  | zero =>
    obtain rfl : j = 8 := hk
    refine ⟨hclock, h, hbyte.trans ?_⟩
    exact shiftIn_wireBits old (memRead s r.offset)
  | succ k ih =>
    have hj : j < 8 := by omega
    have hframe : InFrame (reading s r j) := by
      refine ⟨?_, ?_, ?_⟩
      · simp [reading]; omega
      all_goals simp [reading, hj]
    have hstay : lowPhase s (reading s r j) = reading s r j := by
      rw [lowPhase_eq_readLow s (.inl (by simp [reading, hj]))]
      have hj16 : j % 16 = j := by omega
      simp [readLow, reading, hj, ofNat_counter_ne hj, hj16]
    obtain ⟨hlow, hsettled, hshift⟩ := readBit_reading hj r h hframe hclock hstay (by simp [reading, hj]) hstarted
    refine ih (by omega) hsettled hlow ?_
    rw [hshift, hbyte, take_wireBits_succ _ hj, shiftIn_append]

/-- A whole byte: the master has it, and the engine waits for the acknowledge with the line released (42_edid_fsm.md R175). -/
theorem readBits_byte (hclock : ClockLow s) (hen : Enabled s) (hedge : NoEdge s) (hstate : s.cur.state = .read)
    (hcounter : s.cur.counter = 0#4) :
    ClockLow (readBits 8 s) ∧ Settled s (reading s s.cur 8) (readBits 8 s) ∧
      (readBits 8 s).masterByte = memRead s s.cur.offset := by
  have hbusy : s.cur.state ≠ .waitStart := by simp [hstate]
  have hframe : InFrame s.cur := ⟨by simp [hcounter], by simp [hstate], by simp [hstate]⟩
  obtain ⟨hlow, hsettled, hshift⟩ :=
    readBit_reading (by decide) s.cur (settled_refl hen hedge) hframe hclock (lowPhase_of_read s hstate hcounter) hbusy hbusy
  refine readBits_reading 7 rfl s.masterByte hsettled hlow hbusy ?_
  rw [hshift, take_wireBits_succ _ (by decide), shiftIn_append]
  rfl

end Read

/-! ## From one operation to the next -/

/-- Between two operations: the clock is low, the engine is enabled, no event is due, and state and counter are as given. -/
structure Between (state : EdidState) (counter : BitVec 4) (s : State) : Prop where
  clock : ClockLow s
  enabled : Enabled s
  quiet : NoEdge s
  state : s.cur.state = state
  counter : s.cur.counter = counter

section Operations
variable {s t : State} {r : Regs}

theorem pulls_congr {a b : Regs} (h : engineRegs a = engineRegs b) : pulls a = pulls b := by
  obtain ⟨hstate, -, -, -, -, hdrv, hbit⟩ := engineRegs_eq_iff.mp h
  rw [pulls, pulls, hstate, hdrv, hbit]

theorem Settled.between (h : Settled s r t) (hclock : ClockLow t) : Between r.state r.counter t := by
  obtain ⟨hstate, hcounter, -⟩ := engineRegs_eq_iff.mp h.regs
  exact ⟨hclock, h.enabled, (eventFollows_iff.mp h.event).1, hstate, hcounter⟩

theorem Between.settled {state : EdidState} {counter : BitVec 4} (h : Between state counter s) : Settled s s.cur s :=
  settled_refl h.enabled h.quiet

theorem Settled.offset (h : Settled s r t) : t.cur.offset = r.offset := by
  obtain ⟨-, -, -, -, hoffset, -⟩ := engineRegs_eq_iff.mp h.regs
  exact hoffset

theorem pulls_eq_false_of_notPulling (hstate : s.cur.state = .waitStart) (h : NotPulling s) : pulls s.cur = false := by
  simpa [pulls, hstate, NotPulling] using h

theorem notPulling_of_pulls (h : pulls s.cur = false) : NotPulling s := by
  simp only [pulls, Bool.or_eq_false_iff] at h
  simpa [NotPulling] using h.2

/-- START from an idle bus in `WAIT_START` (42_edid_fsm.md R170). -/
theorem start_between (hidle : BusIdle s) (hen : Enabled s) (hedge : NoEdge s) (hstate : s.cur.state = .waitStart)
    (hfree : pulls s.cur = false) :
    Between .rcvAddress 0#4 (startCondition s) ∧ pulls (startCondition s).cur = false ∧ (startCondition s).mem = s.mem := by
  obtain ⟨hlow, hsettled⟩ := startCondition_settled hidle hen hedge (by simp [highTick, hstate])
  refine ⟨hsettled.between hlow, (pulls_congr hsettled.regs).trans ?_, hsettled.mem⟩
  simpa [pulls, hstate] using hfree

/-- The address byte of a write (R171). -/
theorem addressWrite_between (h : Between .rcvAddress 0#4 s) (hfree : pulls s.cur = false) :
    let t := sendByte (addressByte Config.slaveAddr false) s
    Between .rcvOffset 0#4 t ∧ pulls t.cur = false ∧ t.mem = s.mem := by
  obtain ⟨hlow, hsettled, -⟩ := sendByte_own (addressByte Config.slaveAddr false) h.settled h.clock h.state h.counter hfree
    (by simp [h.state]) (addressByte_addr _ _)
  have hnext : lowPhase s { s.cur with
      state := .ackAddress2, counter := 0#4, din := addressByte Config.slaveAddr false,
      isRead := (addressByte Config.slaveAddr false).getLsbD 0 } =
    { s.cur with state := .rcvOffset, counter := 0#4, din := addressByte Config.slaveAddr false, isRead := false } := by
    simp only [addressByte_rw]
    rfl
  rw [hnext] at hsettled
  refine ⟨hsettled.between hlow, (pulls_congr hsettled.regs).trans ?_, hsettled.mem⟩
  simpa [pulls, h.state] using hfree

/-- The address byte of a read (R172). -/
theorem addressRead_between (h : Between .rcvAddress 0#4 s) (hfree : pulls s.cur = false) :
    let t := sendByte (addressByte Config.slaveAddr true) s
    Between .read 0#4 t ∧ t.cur.offset = s.cur.offset ∧ t.mem = s.mem := by
  obtain ⟨hlow, hsettled, -⟩ := sendByte_own (addressByte Config.slaveAddr true) h.settled h.clock h.state h.counter hfree
    (by simp [h.state]) (addressByte_addr _ _)
  rw [addressByte_rw, lowPhase_eq_readLow s (.inr ⟨rfl, rfl⟩)] at hsettled
  exact ⟨hsettled.between hlow, hsettled.offset, hsettled.mem⟩

/-- The offset byte (R174). -/
theorem offset_between (ignored : Bool) (off : BitVec 7) (h : Between .rcvOffset 0#4 s) (hfree : pulls s.cur = false) :
    let t := sendByte (offsetByte ignored off) s
    Between .rcvAddress 0#4 t ∧ pulls t.cur = false ∧ t.cur.offset = off ∧ t.mem = s.mem := by
  obtain ⟨hlow, hsettled, -⟩ := sendByte_offset (offsetByte ignored off) h.settled h.clock h.state h.counter hfree
    (by simp [h.state])
  refine ⟨hsettled.between hlow, (pulls_congr hsettled.regs).trans ?_,
    hsettled.offset.trans (offsetByte_off ignored off), hsettled.mem⟩
  simpa [pulls, h.state] using hfree

/-- A repeated START where an address byte is awaited (R170). -/
theorem repeatedStart_between (h : Between .rcvAddress 0#4 s) (hfree : pulls s.cur = false) :
    let t := repeatedStart s
    Between .rcvAddress 0#4 t ∧ pulls t.cur = false ∧ t.cur.offset = s.cur.offset ∧ t.mem = s.mem := by
  have hrecv : Receiving s.cur := .inl h.state
  have hlowPhase := lowPhase_of_receiving s hrecv
  have hhigh : highPhase true s.cur = countBit true s.cur := by simp [highPhase, countBit, h.state, h.counter]
  obtain ⟨hlow, hsettled⟩ := repeatedStart_settled h.clock h.enabled h.quiet
    (inFrame_of_receiving hrecv (by simp [h.counter]))
    (by rwa [hlowPhase]) (by rw [hlowPhase, hhigh, countBit_state])
  rw [hlowPhase, hhigh] at hsettled
  refine ⟨hsettled.between hlow, (pulls_congr hsettled.regs).trans ?_,
    hsettled.offset.trans (countBit_offset _ _), hsettled.mem⟩
  simpa [pulls, h.state] using hfree

/-- A byte read (R175). -/
theorem readByte_between (h : Between .read 0#4 s) :
    let t := readBits 8 s
    Between .ackRead 8#4 t ∧ pulls t.cur = false ∧ t.masterByte = memRead s s.cur.offset ∧ t.cur.offset = s.cur.offset ∧
      t.mem = s.mem := by
  obtain ⟨hlow, hsettled, hbyte⟩ := readBits_byte h.clock h.enabled h.quiet h.state h.counter
  exact ⟨hsettled.between hlow, pulls_congr hsettled.regs, hbyte, hsettled.offset, hsettled.mem⟩

/-- The master's acknowledge bit (R177, R178): the engine's registers after the high clock. -/
theorem sendBit_acknowledge (bit : Bool) (h : Between .ackRead 8#4 s) (hfree : pulls s.cur = false) :
    ClockLow (sendBit bit s) ∧ Settled s
      (lowPhase s { s.cur with
        state := if bit = true then .waitStart else .read, counter := 0#4, offset := s.cur.offset + 1#7 })
      (sendBit bit s) := by
  have hlowPhase : lowPhase s s.cur = s.cur := by simp [lowPhase, h.state]
  have hframe : InFrame s.cur := ⟨by simp [h.counter], by simp [h.state], by simp [h.state]⟩
  have hsent := sendBit_settled (d := bit) (v := bit) h.settled hframe h.clock Iff.rfl (by simp [hlowPhase, hfree])
  rw [hlowPhase] at hsent
  simpa [highPhase, countBit, h.state, h.counter] using hsent

theorem ack_between (h : Between .ackRead 8#4 s) (hfree : pulls s.cur = false) :
    let t := sendBit false s
    Between .read 0#4 t ∧ t.cur.offset = s.cur.offset + 1#7 ∧ t.mem = s.mem := by
  obtain ⟨hlow, hsettled⟩ := sendBit_acknowledge false h hfree
  rw [lowPhase_eq_readLow s (.inl rfl)] at hsettled
  exact ⟨hsettled.between hlow, hsettled.offset, hsettled.mem⟩

@[simp] theorem sendBit_masterByte (b : Bool) (s : State) : (sendBit b s).masterByte = s.masterByte := by
  simp [sendBit, quarter]

@[simp] theorem stopCondition_masterByte (s : State) : (stopCondition s).masterByte = s.masterByte := by
  simp [stopCondition, quarter]

theorem nack_between (h : Between .ackRead 8#4 s) (hfree : pulls s.cur = false) :
    let t := sendBit true s
    Between .waitStart 0#4 t ∧ pulls t.cur = false ∧ t.cur.offset = s.cur.offset + 1#7 ∧ t.mem = s.mem ∧
      EventRaised false t := by
  obtain ⟨hlow, hsettled⟩ := sendBit_acknowledge true h hfree
  have hbetween := hsettled.between hlow
  refine ⟨hbetween, (pulls_congr hsettled.regs).trans ?_, hsettled.offset, hsettled.mem, ?_⟩
  · simpa [pulls, lowPhase, h.state] using hfree
  · have hwaits : (sendBit true s).cur.state = .waitStart := hbetween.state
    have hraised := hsettled.event.2 (by simp [h.state, hwaits])
    rwa [hwaits] at hraised

/-- STOP in `WAIT_START` (R176): an idle bus, and nothing else of note. -/
theorem stop_between (h : Between .waitStart 0#4 s) (hfree : pulls s.cur = false) :
    let t := stopCondition s
    BusIdle t ∧ t.cur.state = .waitStart ∧ pulls t.cur = false ∧ t.cur.offset = s.cur.offset ∧ t.mem = s.mem ∧
      EventKept s t := by
  have hlowPhase : lowPhase s s.cur = s.cur := by simp [lowPhase, h.state]
  have hhigh : highPhase false s.cur = countBit false s.cur := by simp [highPhase, h.state]
  have hframe : InFrame s.cur := ⟨by simp [h.counter], by simp [h.state], by simp [h.state]⟩
  obtain ⟨hidle, hsettled⟩ := stopCondition_settled h.clock h.enabled h.quiet hframe (by rwa [hlowPhase])
  rw [hlowPhase, hhigh] at hsettled
  obtain ⟨hstate, -⟩ := engineRegs_eq_iff.mp hsettled.regs
  rw [countBit_state] at hstate
  refine ⟨hidle, hstate.trans h.state, (pulls_congr hsettled.regs).trans ?_, hsettled.offset.trans (countBit_offset _ _),
    hsettled.mem, hsettled.event.1 (by rw [hstate])⟩
  rw [pulls_countBit, hfree]

end Operations

end Sys2Proof.Proofs
end

section
/-! PROOFS. Proofs/BusReads.lean: the statements of 30_encoding.md about scripts: the sequential and the random read
(R95, R96). -/

namespace Sys2Proof.Proofs

open Sys2Proof.Machine Sys2Proof.Safety Sys2Proof.Laws

/-! ## Reading the memory over the bus (30_encoding.md R95, R96) -/

theorem bytesFrom_succ (s : State) (o : BitVec 7) (n : Nat) :
    bytesFrom s o (n + 1) = memRead s o :: bytesFrom s (o + 1#7) n := by
  have hshift : ∀ k, o + BitVec.ofNat 7 (k + 1) = o + 1#7 + BitVec.ofNat 7 k := by
    intro k
    rw [BitVec.add_assoc, Nat.add_comm k 1, BitVec.ofNat_add]
  rw [bytesFrom, List.range_succ_eq_map, List.map_cons, List.map_map]
  refine congrArg₂ List.cons (by simp) (List.map_congr_left fun k _ => ?_)
  rw [Function.comp_apply, hshift]

theorem bytesFrom_of_mem_eq {s t : State} (h : t.mem = s.mem) : bytesFrom t = bytesFrom s := by
  funext o n
  simp only [bytesFrom, memRead, h]

/-- One byte of a sequential read, then the rest. -/
theorem readBytes_succ (n : Nat) (s : State) : readBytes (n + 1) s =
    (readBytes n (sendBit false (readBits 8 s))).map fun r => ((readBits 8 s).masterByte :: r.1, r.2) := rfl

/-- Settles O58, by induction on the number of bytes: one byte read and acknowledged is the memory's byte at the offset, and the
engine stands as before at the next offset. -/
theorem sequentialRead : Obligations.SequentialRead := by
  intro n
  induction n with
  | zero =>
    intro s hclock hen hedge hstate hcounter
    exact ⟨s, rfl, hclock, hen, hedge, hstate, hcounter, by simp, rfl⟩
  | succ n ih =>
    intro s hclock hen hedge hstate hcounter
    obtain ⟨hread, hfree, hbyte, hoffset, hmem⟩ := readByte_between ⟨hclock, hen, hedge, hstate, hcounter⟩
    obtain ⟨hnext, hoffset', hmem'⟩ := ack_between hread hfree
    obtain ⟨t, hbytes, hclockT, henT, hedgeT, hstateT, hcounterT, hoffsetT, hmemT⟩ :=
      ih _ hnext.clock hnext.enabled hnext.quiet hnext.state hnext.counter
    rw [hoffset', hoffset, bytesFrom_of_mem_eq (hmem'.trans hmem)] at hbytes
    refine ⟨t, ?_, hclockT, henT, hedgeT, hstateT, hcounterT, ?_, hmemT.trans (hmem'.trans hmem)⟩
    · rw [readBytes_succ, hbytes, bytesFrom_succ, hbyte]; rfl
    · rw [hoffsetT, hoffset', hoffset, BitVec.add_assoc, Nat.add_comm n 1, BitVec.ofNat_add]

/-- The operations before the bytes. -/
theorem performAll_addressing (ignored : Bool) (off : BitVec 7) (s : State) :
    performAll [.busStart false, .busAddrW, .busOffset ignored off, .busStart true, .busAddrR] s =
      some (sendByte (addressByte Config.slaveAddr true) (repeatedStart (sendByte (offsetByte ignored off)
        (sendByte (addressByte Config.slaveAddr false) (startCondition s))))) := by
  rw [performAll_cons (t := startCondition s) _ rfl, performAll_cons _ rfl, performAll_cons _ rfl,
    performAll_cons (t := repeatedStart _) _ rfl, performAll_cons _ rfl]
  rfl

/-- The operations of the last byte. -/
theorem performAll_closing (s : State) :
    performAll [.busRdbyte, .busMnack, .busStop] s = some (stopCondition (sendBit true (readBits 8 s))) := by
  rw [performAll_cons _ rfl, performAll_cons _ rfl, performAll_cons _ rfl]
  rfl

/-- Settles O59: the five operations up to the read address, the sequential read, and the last byte with its NACK and STOP, each
from where the one before leaves the engine. -/
theorem randomRead : Obligations.RandomRead := by
  intro s ignored off n hidle hen hfree hedge hstate
  obtain ⟨hstart, hfree, hmem₁⟩ := start_between hidle hen hedge hstate (pulls_eq_false_of_notPulling hstate hfree)
  obtain ⟨hwrite, hfree, hmem₂⟩ := addressWrite_between hstart hfree
  obtain ⟨hoff, hfree, hoffset₃, hmem₃⟩ := offset_between ignored off hwrite hfree
  obtain ⟨hagain, hfree, hoffset₄, hmem₄⟩ := repeatedStart_between hoff hfree
  obtain ⟨hread, hoffset₅, hmem₅⟩ := addressRead_between hagain hfree
  have hmem := hmem₅.trans (hmem₄.trans (hmem₃.trans (hmem₂.trans hmem₁)))
  have hoffset := hoffset₅.trans (hoffset₄.trans hoffset₃)
  obtain ⟨u, hbytes, hclockU, henU, hedgeU, hstateU, hcounterU, hoffsetU, hmemU⟩ :=
    sequentialRead n _ hread.clock hread.enabled hread.quiet hread.state hread.counter
  rw [hoffset, bytesFrom_of_mem_eq hmem] at hbytes
  obtain ⟨hlast, hfree, hbyte, hoffset₆, hmem₆⟩ := readByte_between ⟨hclockU, henU, hedgeU, hstateU, hcounterU⟩
  obtain ⟨hnack, hfree, hoffset₇, hmem₇, hpending, hcaptured, -⟩ := nack_between hlast hfree
  obtain ⟨hidleV, hstateV, hfree, hoffset₈, hmem₈, hpending', hcaptured', hedgeV⟩ := stop_between hnack hfree
  have hmemS : u.mem = s.mem := hmemU.trans hmem
  refine ⟨_, u, _, performAll_addressing ignored off s, hbytes, performAll_closing u, ?_, ?_, hstateV, hidleV,
    notPulling_of_pulls hfree, ⟨hpending'.trans hpending, hcaptured'.trans hcaptured, hedgeV⟩,
    hmem₈.trans (hmem₇.trans (hmem₆.trans hmemS))⟩
  · rw [stopCondition_masterByte, sendBit_masterByte, hbyte, hoffsetU, hoffset, memRead, memRead, hmemS]
  · rw [hoffset₈, hoffset₇, hoffset₆, hoffsetU, hoffset, BitVec.add_assoc, BitVec.ofNat_add]

end Sys2Proof.Proofs
end

section
/-! PROOFS. Proofs/SyncEdge.lean: the statements of 40_sync_edge.md: the guards, the sampler, the edge pulses, and the samples as
decimated pins. -/

namespace Sys2Proof.Proofs

open Sys2Proof.Machine Sys2Proof.Safety

/-! ## One tick of the sampler (40_sync_edge.md R112 to R114) -/

theorem sampCarry_iff {s : State} : sampCarry s = true ↔ s.cur.sampCount = 63#6 := beq_iff_eq

theorem sampCarry_eq_false_iff {s : State} : sampCarry s = false ↔ s.cur.sampCount ≠ 63#6 := beq_eq_false_iff_ne

/-- The six bits' increment is the increment modulo 64. -/
theorem sampCount_succ_toNat (n : BitVec 6) : (n + 1#6).toNat = (n.toNat + 1) % 64 := BitVec.toNat_add n 1#6

theorem tick_samples_of_carry {s : State} (h : sampCarry s = true) :
    (tick s).cur.sclI = s.cur.sclS2 ∧ (tick s).cur.sdaI = s.cur.sdaS2 := by
  simp only [tick_sclI, tick_sdaI, h, if_true, and_self]

theorem tick_samples_of_noCarry {s : State} (h : sampCarry s = false) :
    (tick s).cur.sclI = s.cur.sclI ∧ (tick s).cur.sdaI = s.cur.sdaI := by
  simp only [tick_sclI, tick_sdaI, h, Bool.false_eq_true, if_false, and_self]

theorem exec_sampCount (s : State) : exec .sampCount s = .next { s with
    nxt := { s.nxt with sampCount := BitVec.ofNat 6 ((s.cur.sampCount.toNat + 1) % 64) }
    wires := { s.wires with sampCarry := s.cur.sampCount == 63#6 } } := by
  have hcount : BitVec.ofNat 6 ((s.cur.sampCount.toNat + 1) % 64) = s.cur.sampCount + 1#6 := by
    rw [← sampCount_succ_toNat, BitVec.ofNat_toNat, BitVec.setWidth_eq]
  rw [hcount]
  rfl

theorem stageSampLatch_of_carry {s : State} (n : Regs) (h : sampCarry s = true) :
    stageSampLatch s n = { n with sclI := s.cur.sclS2, sdaI := s.cur.sdaS2 } := by
  simp only [stageSampLatch, h, if_true]

theorem stageSampLatch_of_noCarry {s : State} (n : Regs) (h : sampCarry s = false) : stageSampLatch s n = n := by
  simp only [stageSampLatch, h, Bool.false_eq_true, if_false]

theorem exec_sampLatch (s : State) : exec .sampLatch s = .next (if s.cur.sampCount = 63#6 then
    { s with nxt := { s.nxt with sclI := s.cur.sclS2, sdaI := s.cur.sdaS2 } } else s) := by
  have hexec : exec .sampLatch s = .next { s with nxt := stageSampLatch s s.nxt } := rfl
  by_cases h : s.cur.sampCount = 63#6
  · rw [hexec, if_pos h, stageSampLatch_of_carry _ (sampCarry_iff.mpr h)]
  · rw [hexec, if_neg h, stageSampLatch_of_noCarry _ (sampCarry_eq_false_iff.mpr h)]

/-- Settles O11, by the two cases of the carry. -/
theorem samplerCountsAndLatches : Obligations.SamplerCountsAndLatches := fun s =>
  ⟨exec_sampCount s, exec_sampLatch s, (congrArg BitVec.toNat (tick_sampCount s)).trans (sampCount_succ_toNat _),
    fun h => tick_samples_of_carry (sampCarry_iff.mpr h), fun h => tick_samples_of_noCarry (sampCarry_eq_false_iff.mpr h)⟩

/-! ## The guards, the previous-tick copies and the pulses (R110, R111, R115 to R120) -/

/-- Settles O10: each operation stages its own registers, and the tick commits the same values. -/
theorem guardsAndPreviousSamples : Obligations.GuardsAndPreviousSamples := fun s =>
  ⟨rfl, rfl, rfl, rfl, tick_sclS1 s, tick_sclS2 s, tick_sdaS1 s, tick_sdaS2 s, tick_sclR s, tick_sdaR s⟩

/-- Settles O12: each operation drives its own wire, and the tick drives the same values. -/
theorem edgePulses : Obligations.EdgePulses := fun s =>
  ⟨rfl, rfl, rfl, rfl, congrArg Wires.sclRising (tick_wires s), congrArg Wires.sdaRising (tick_wires s),
    congrArg Wires.sdaFalling (tick_wires s), congrArg Wires.start (tick_wires s)⟩

/-! ## The samples over several ticks (R122, R123) -/

theorem sampCarry_ticks (k : Nat) (s : State) :
    sampCarry (ticks k s) = (s.cur.sampCount + BitVec.ofNat 6 k == 63#6) :=
  congrArg (· == 63#6) (ticks_sampCount k s)

/-- The guards show the pins of two ticks before. -/
theorem ticks_guards (s : State) :
    (ticks 2 s).cur.sclS2 = s.now.sclPin ∧ (ticks 2 s).cur.sdaS2 = s.now.sdaPin := by
  simp only [ticks, tick_sclS2, tick_sclS1, tick_sdaS2, tick_sdaS1, and_self]

/-- A carry takes the pins of two ticks before. -/
theorem ticks_samples_of_carry {s : State} (h : sampCarry (ticks 2 s) = true) :
    (ticks 3 s).cur.sclI = s.now.sclPin ∧ (ticks 3 s).cur.sdaI = s.now.sdaPin := by
  obtain ⟨hscl, hsda⟩ := tick_samples_of_carry h
  obtain ⟨hsclS2, hsdaS2⟩ := ticks_guards s
  exact ⟨hscl.trans hsclS2, hsda.trans hsdaS2⟩

theorem ticks_samples_of_noCarry {k : Nat} {s : State} (h : ∀ j, j < k → sampCarry (ticks j s) = false) :
    (ticks k s).cur.sclI = s.cur.sclI ∧ (ticks k s).cur.sdaI = s.cur.sdaI := by
  induction k with
  | zero => exact ⟨rfl, rfl⟩
  | succ k ih =>
    obtain ⟨hscl, hsda⟩ := ih fun j hj => h j (Nat.lt_succ_of_lt hj)
    obtain ⟨hscl', hsda'⟩ := tick_samples_of_noCarry (h k k.lt_succ_self)
    rw [ticks_succ]
    exact ⟨hscl'.trans hscl, hsda'.trans hsda⟩

/-- After the counter has wrapped to 0, its next carry is in the 64th tick. -/
theorem noCarry_of_wrapped {s : State} (h : s.cur.sampCount = 0#6) {j : Nat} (hj : j < 63) :
    sampCarry (ticks j s) = false := by
  rw [sampCarry_ticks, h, BitVec.zero_add, beq_eq_false_iff_ne]
  intro heq
  have hval : j % 64 = 63 := congrArg BitVec.toNat heq
  omega

/-- Settles O13: the third tick is a carry and takes the first tick's pins; from there on the counter has wrapped, and the samples
stand until its next carry. -/
theorem sampleIsDecimatedPin : Obligations.SampleIsDecimatedPin := by
  intro s hcount k hlow hhigh
  obtain ⟨m, rfl⟩ := Nat.exists_eq_add_of_le hlow
  have hcarry : sampCarry (ticks 2 s) = true := by rw [sampCarry_ticks, hcount]; rfl
  have hwrapped : (ticks 3 s).cur.sampCount = 0#6 := by rw [ticks_sampCount, hcount]; rfl
  obtain ⟨hscl, hsda⟩ := ticks_samples_of_carry hcarry
  obtain ⟨hscl', hsda'⟩ := ticks_samples_of_noCarry (k := m) fun j hj => noCarry_of_wrapped hwrapped (j := j) (by omega)
  rw [ticks_add]
  exact ⟨hscl'.trans hscl, hsda'.trans hsda⟩

/-! ## What the component depends on (R124) -/

/-- The nine registers after a tick are fixed by the nine before it and the two pins. -/
theorem syncRegs_tick_eq {s u : State} (hregs : syncRegs s.cur = syncRegs u.cur) (hscl : s.now.sclPin = u.now.sclPin)
    (hsda : s.now.sdaPin = u.now.sdaPin) : syncRegs (tick s).cur = syncRegs (tick u).cur := by
  simp only [syncRegs, Prod.mk.injEq] at hregs
  obtain ⟨hsclS1, hsclS2, hsdaS1, hsdaS2, hcount, hsclI, hsdaI, -, -⟩ := hregs
  have hcarry : sampCarry s = sampCarry u := congrArg (· == 63#6) hcount
  simp only [syncRegs, tick_sclS1, tick_sclS2, tick_sdaS1, tick_sdaS2, tick_sampCount, tick_sclI, tick_sdaI, tick_sclR,
    tick_sdaR, hscl, hsda, hsclS1, hsclS2, hsdaS1, hsdaS2, hcount, hsclI, hsdaI, hcarry]

/-- Settles O14, by induction on the number of ticks, each of which sees equal registers and equal pins. -/
theorem synchronizerIndependent : Obligations.SynchronizerIndependent := by
  intro k s u hregs hpins
  induction k with
  | zero => exact hregs
  | succ k ih =>
    obtain ⟨hscl, hsda⟩ := hpins k k.lt_succ_self
    rw [ticks_succ, ticks_succ]
    exact syncRegs_tick_eq (ih fun j hj => hpins j (Nat.lt_succ_of_lt hj)) hscl hsda

end Sys2Proof.Proofs
end

section
/-! PROOFS. Proofs/ByteEngine.lean: the statements of 41_byte_engine.md: the bit counter and the shift register, the direction and
the offset, the data-line driver, and the framing every step keeps. -/

namespace Sys2Proof.Proofs

open Sys2Proof.Machine Sys2Proof.Safety

/-! ## The wires the byte engine reads, as conditions on the registers -/

theorem start_eq_startSeen (s : State) : start s = startSeen s.cur := rfl

theorem sclRising_eq_clockRises (s : State) : sclRising s = clockRises s.cur := rfl

theorem byteDone_iff {s : State} : byteDone s = true ↔ s.cur.counter = 8#4 := beq_iff_eq

theorem byteDone_eq_false_iff {s : State} : byteDone s = false ↔ s.cur.counter ≠ 8#4 := beq_eq_false_iff_ne

theorem addrMatch_iff {s : State} : addrMatch s = true ↔ s.cur.din.extractLsb' 1 7 = 0x50#7 := beq_iff_eq

/-- A strobe is raised in one state only (42_edid_fsm.md R154, R160, R164, R165). -/
theorem updateIsRead_iff {s : State} : (currentRow s).updateIsRead = true ↔
    s.cur.state = .rcvAddress ∧ s.cur.counter = 8#4 ∧ s.cur.din.extractLsb' 1 7 = 0x50#7 := by
  rw [currentRow_updateIsRead, Bool.and_eq_true, Bool.and_eq_true, beq_iff_eq, byteDone_iff, addrMatch_iff, and_assoc]

theorem ocLoad_iff {s : State} : (currentRow s).ocLoad = true ↔ s.cur.state = .rcvOffset ∧ s.cur.counter = 8#4 := by
  rw [currentRow_ocLoad, Bool.and_eq_true, beq_iff_eq, byteDone_iff]

theorem ocInc_iff {s : State} : (currentRow s).ocInc = true ↔ s.cur.state = .ackRead ∧ clockRises s.cur = true := by
  rw [currentRow_ocInc, Bool.and_eq_true, beq_iff_eq, sclRising_eq_clockRises]

theorem dataDrvEn_iff {s : State} : (currentRow s).dataDrvEn = true ↔
    s.cur.state = .read ∧ s.cur.sclI = false ∧ s.cur.counter ≠ 8#4 := by
  rw [currentRow_dataDrvEn, Bool.and_eq_true, Bool.and_eq_true, beq_iff_eq, Bool.not_eq_true', Bool.not_eq_true',
    byteDone_eq_false_iff, and_assoc]

theorem dataDrvStop_iff {s : State} : (currentRow s).dataDrvStop = true ↔
    s.cur.state = .read ∧ s.cur.sclI = false ∧ s.cur.counter = 8#4 := by
  rw [currentRow_dataDrvStop, Bool.and_eq_true, Bool.and_eq_true, beq_iff_eq, Bool.not_eq_true', byteDone_iff, and_assoc]

/-- Load and increment belong to different states, so they never meet (41_byte_engine.md R137). -/
theorem ocLoad_eq_false_of_ocInc {s : State} (h : (currentRow s).ocInc = true) : (currentRow s).ocLoad = false := by
  obtain ⟨hstate, -⟩ := ocInc_iff.mp h
  rw [currentRow_ocLoad, hstate]
  rfl

/-! ## What each operation stages

Each rule's register, as a function of the registers alone. The operation applies it to the primed registers, the tick to the
committed ones. -/

theorem next_stage {s : State} {f : State → Regs → Regs} {n : Regs} (h : f s s.nxt = n) :
    (.next (s.stage f) : Result) = .next { s with nxt := n } := by rw [State.stage, h]

theorem next_stage_drive {s : State} {f : State → Regs → Regs} {n : Regs} (g : State → Wires → Wires) (h : f s s.nxt = n) :
    (.next ((s.stage f).drive g) : Result) = .next (State.drive { s with nxt := n } g) := by rw [State.stage, h]

theorem stageBitCount_eq (s : State) (n : Regs) : stageBitCount s n = { n with
    counter :=
      if startSeen s.cur = true then 0#4
      else if clockRises s.cur = true then (if s.cur.counter = 8#4 then 0#4 else s.cur.counter + 1#4)
      else n.counter } := by
  simp only [stageBitCount, byteDone_iff, start_eq_startSeen, sclRising_eq_clockRises]

theorem stageBitShift_eq (s : State) (n : Regs) : stageBitShift s n = { n with
    din :=
      if startSeen s.cur = false ∧ clockRises s.cur = true ∧ s.cur.counter ≠ 8#4 then
        BitVec.concat (s.cur.din.extractLsb' 0 7) s.cur.sdaI
      else n.din } := by
  simp only [stageBitShift, Bool.and_eq_true, Bool.not_eq_true', byteDone_eq_false_iff, start_eq_startSeen,
    sclRising_eq_clockRises, and_assoc, shiftedIn]

theorem stageDirLatch_eq (s : State) (n : Regs) : stageDirLatch s n = { n with
    isRead :=
      if s.cur.state = .rcvAddress ∧ s.cur.counter = 8#4 ∧ s.cur.din.extractLsb' 1 7 = 0x50#7 then s.cur.din.getLsbD 0
      else n.isRead } := by
  simp only [stageDirLatch, updateIsRead_iff, rxRw]

theorem stageOffLoad_eq (s : State) (n : Regs) : stageOffLoad s n = { n with
    offset := if s.cur.state = .rcvOffset ∧ s.cur.counter = 8#4 then s.cur.din.extractLsb' 0 7 else n.offset } := by
  simp only [stageOffLoad, ocLoad_iff, rxOff]

/-- The seven bits' increment is the increment modulo 128. -/
theorem offset_succ (o : BitVec 7) : o + 1#7 = BitVec.ofNat 7 ((o.toNat + 1) % 128) := by
  have hsum : (o + 1#7).toNat = (o.toNat + 1) % 128 := BitVec.toNat_add o 1#7
  rw [← hsum, BitVec.ofNat_toNat, BitVec.setWidth_eq]

theorem stageOffInc_eq (s : State) (n : Regs) : stageOffInc s n = { n with
    offset :=
      if s.cur.state = .ackRead ∧ clockRises s.cur = true then BitVec.ofNat 7 ((s.cur.offset.toNat + 1) % 128)
      else n.offset } := by
  have hinc : (!(currentRow s).ocLoad && (currentRow s).ocInc) = (currentRow s).ocInc := by
    cases h : (currentRow s).ocInc
    · exact Bool.and_false _
    · rw [ocLoad_eq_false_of_ocInc h]; rfl
  simp only [stageOffInc, hinc, ocInc_iff, offset_succ]

/-- With fewer than eight bits out, the bit presented is the memory byte's, most significant first. -/
theorem bitToSend_of_open {s : State} (hle : s.cur.counter.toNat ≤ 8) (hopen : s.cur.counter ≠ 8#4) :
    bitToSend s = (memRead s s.cur.offset).getLsbD (7 - s.cur.counter.toNat) := by
  have hlt : s.cur.counter.toNat < 8 := by bv_omega
  rw [bitToSend, if_pos hlt, memByte]

theorem stageDrvBit_eq {s : State} (hle : s.cur.counter.toNat ≤ 8) (n : Regs) : stageDrvBit s n = { n with
    dataBit :=
      if s.cur.state = .read ∧ s.cur.sclI = false ∧ s.cur.counter ≠ 8#4 then
        (memRead s s.cur.offset).getLsbD (7 - s.cur.counter.toNat)
      else n.dataBit } := by
  simp only [stageDrvBit, dataDrvEn_iff]
  split_ifs with hsend
  · obtain ⟨-, -, hopen⟩ := hsend
    rw [bitToSend_of_open hle hopen]
  · rfl

theorem stageDrvEn_eq (s : State) (n : Regs) : stageDrvEn s n = { n with
    dataDrv := if s.cur.state = .read ∧ s.cur.sclI = false then decide (s.cur.counter ≠ 8#4) else n.dataDrv } := by
  simp only [stageDrvEn, dataDrvEn_iff, dataDrvStop_iff]
  by_cases hlow : s.cur.state = .read ∧ s.cur.sclI = false
  · by_cases hdone : s.cur.counter = 8#4 <;> simp [hlow, hdone]
  · simp only [← and_assoc, hlow, false_and, if_false]

/-! ## The bit counter, the shift register, the direction and the offset (R130 to R136) -/

/-- Settles O15: the operation and the tick make the same of counter and shift register. -/
theorem bitCounterAndShift : Obligations.BitCounterAndShift := fun s =>
  ⟨next_stage (stageBitCount_eq s s.nxt), next_stage (stageBitShift_eq s s.nxt),
    congrArg Regs.counter (stageBitCount_eq s s.cur), congrArg Regs.din (stageBitShift_eq s s.cur)⟩

/-- A tick loads and increments; load and increment being exclusive, their order does not show. -/
theorem tick_offset_eq (s : State) : (tick s).cur.offset =
    (if s.cur.state = .rcvOffset ∧ s.cur.counter = 8#4 then s.cur.din.extractLsb' 0 7
      else if s.cur.state = .ackRead ∧ clockRises s.cur = true then BitVec.ofNat 7 ((s.cur.offset.toNat + 1) % 128)
      else s.cur.offset) := by
  have htick : (tick s).cur.offset = (stageOffInc s (stageOffLoad s s.cur)).offset := rfl
  rw [htick, stageOffInc_eq, stageOffLoad_eq]
  by_cases hinc : s.cur.state = .ackRead ∧ clockRises s.cur = true
  · have hload : ¬(s.cur.state = .rcvOffset ∧ s.cur.counter = 8#4) := by simp [hinc.1]
    simp only [if_pos hinc, if_neg hload]
  · simp only [if_neg hinc]

/-- Settles O16: the operation and the tick make the same of direction and offset. -/
theorem directionAndOffset : Obligations.DirectionAndOffset := fun s =>
  ⟨next_stage (stageDirLatch_eq s s.nxt), next_stage (stageOffLoad_eq s s.nxt), next_stage (stageOffInc_eq s s.nxt),
    congrArg Regs.isRead (stageDirLatch_eq s s.cur), tick_offset_eq s⟩

/-! ## The data-line driver (R138 to R143) -/

/-- Settles O17: the operation and the tick make the same of the bit presented and of the drive latch. -/
theorem bitPresented : Obligations.BitPresented := fun s hle =>
  ⟨next_stage_drive driveMemByte (stageDrvBit_eq hle s.nxt), next_stage (stageDrvEn_eq s s.nxt),
    congrArg Regs.dataBit (stageDrvBit_eq hle s.cur), congrArg Regs.dataDrv (stageDrvEn_eq s s.cur)⟩

theorem zeroDrv_eq_decide (s : State) : zeroDrv s = decide (s.cur.state = .ackAddress1 ∨ s.cur.state = .ackAddress2 ∨
    s.cur.state = .ackOffset1 ∨ s.cur.state = .ackOffset2) := by
  rw [zeroDrv_eq, Bool.eq_iff_iff, decide_eq_true_iff]
  simp only [Bool.or_eq_true, beq_iff_eq, or_assoc]

/-- Settles O18: the wires are the rules' own, once the acknowledge request is read as the four states it names. -/
theorem dataLineDriver : Obligations.DataLineDriver := by
  intro s zero oe
  have hzero : zeroDrv s = zero := zeroDrv_eq_decide s
  have hoe : sdaOe s = oe := congrArg (· || (s.cur.dataDrv && !s.cur.dataBit)) hzero
  have hexec : exec .drvSdaOe s = .next { s with wires := { s.wires with zeroDrv := zeroDrv s, sdaOe := sdaOe s } } := rfl
  rw [tick_wires, hexec, hzero, hoe]
  exact ⟨rfl, rfl, rfl, rfl, rfl⟩

/-! ## The framing (R132; 40_sync_edge.md R121)

The eleven places of the bit counter are few: a byte on its way in, a wait for the low clock, a wait for the high clock, a byte on
its way out, the master's acknowledge. A tick takes the machine from one of them to the next. What it needs of the clock is
little: a rising edge shows only in the tick after a carry, and one tick later the sample still shows the clock high. -/

/-- A byte comes in: when it is complete, its eighth rising edge is one tick old. -/
def ByteIncoming (r : Regs) : Prop := r.counter = 8#4 → r.sclI = true ∧ r.sclR = true ∧ r.sampCount = 1#6

/-- The state waits for the clock to fall, and no rising edge shows before it has. -/
def AwaitsLow (c : BitVec 4) (r : Regs) : Prop := r.counter = c ∧ (r.sclI = true → r.sclR = true)

/-- The state waits for the ninth clock, and the clock was low. -/
def AwaitsNinth (r : Regs) : Prop := r.counter = 8#4 ∧ r.sclR = false

/-- A byte goes out: when it is complete, no rising edge shows before the clock has fallen. -/
def ByteOutgoing (r : Regs) : Prop := r.counter = 8#4 → r.sclI = true → r.sclR = true

/-- `Safety.Framed`, with the state and the registers it speaks of apart. -/
def FramedIn : EdidState → Regs → Prop
  | .waitStart => fun _ => True
  | .rcvAddress => ByteIncoming
  | .rcvOffset => ByteIncoming
  | .ackAddress0 => AwaitsLow 8#4
  | .ackOffset0 => AwaitsLow 8#4
  | .ackAddress1 => AwaitsNinth
  | .ackOffset1 => AwaitsNinth
  | .ackAddress2 => AwaitsLow 0#4
  | .ackOffset2 => AwaitsLow 0#4
  | .read => ByteOutgoing
  | .ackRead => fun r => r.counter = 8#4

theorem framed_iff (s : State) : Framed s ↔ FramedIn s.cur.state s.cur := by
  unfold Framed
  cases s.cur.state <;> exact Iff.rfl

theorem byteIncoming_of_open {r : Regs} (h : r.counter ≠ 8#4) : ByteIncoming r := fun hdone => absurd hdone h

theorem byteOutgoing_of_open {r : Regs} (h : r.counter ≠ 8#4) : ByteOutgoing r := fun hdone => absurd hdone h

theorem counter_ne_eight_of_zero {r : Regs} (h : r.counter = 0#4) : r.counter ≠ 8#4 := by
  rw [h]
  decide

section Framing
variable {s : State}

/-! ### Counter and samples after a tick -/

theorem tick_counter_of_start (h : start s = true) : (tick s).cur.counter = 0#4 := by
  rw [tick_counter, if_pos h]

theorem tick_counter_of_still (hstart : start s = false) (hrise : sclRising s = false) :
    (tick s).cur.counter = s.cur.counter := by
  simp only [tick_counter, hstart, hrise, Bool.false_eq_true, if_false]

/-- The ninth clock. -/
theorem tick_counter_of_ninth (hstart : start s = false) (hrise : sclRising s = true) (hdone : s.cur.counter = 8#4) :
    (tick s).cur.counter = 0#4 := by
  simp only [tick_counter, hstart, hrise, byteDone_iff.mpr hdone, Bool.false_eq_true, if_false, if_true]

theorem sclRising_iff : sclRising s = true ↔ s.cur.sclI = true ∧ s.cur.sclR = false := by
  rw [sclRising, Bool.and_eq_true, Bool.not_eq_true']

/-- The clock sample is high only where its copy is: no rising edge. -/
theorem sclRising_of_imp (h : s.cur.sclI = true → s.cur.sclR = true) : sclRising s = false := by
  cases hclock : s.cur.sclI
  · exact sclRising_of_low hclock
  · exact sclRising_of_same ((h hclock).trans hclock.symm)

/-- The samples differ from their copies only where a carry took new ones in the tick before. -/
theorem tick_samplesSettled (s : State) : SamplesSettled (tick s) := by
  intro hcount
  have hcarry : sampCarry s = false := by
    rw [sampCarry_eq_false_iff]
    intro h
    exact hcount (by rw [tick_sampCount, h]; rfl)
  obtain ⟨hscl, hsda⟩ := tick_samples_of_noCarry hcarry
  exact ⟨hscl.symm, hsda.symm⟩

/-- A rising edge shows in the first tick of a sampling period only, so one tick later the clock still stands high. -/
theorem tick_of_sclRising (hsettled : SamplesSettled s) (hrise : sclRising s = true) :
    (tick s).cur.sclI = true ∧ (tick s).cur.sclR = true ∧ (tick s).cur.sampCount = 1#6 := by
  have hcount : s.cur.sampCount = 0#6 := by
    by_contra hne
    exact Bool.false_ne_true ((sclRising_of_same (hsettled hne).1).symm.trans hrise)
  have hcarry : sampCarry s = false := by rw [sampCarry_eq_false_iff, hcount]; decide
  obtain ⟨hclock, -⟩ := sclRising_iff.mp hrise
  refine ⟨(tick_samples_of_noCarry hcarry).1.trans hclock, hclock, ?_⟩
  rw [tick_sampCount, hcount]
  rfl

/-! ### From place to place -/

/-- An incomplete byte stays incomplete or becomes complete by its eighth rising edge. -/
theorem tick_byteIncoming (hsettled : SamplesSettled s) (hstart : start s = false) (hopen : s.cur.counter ≠ 8#4) :
    ByteIncoming (tick s).cur := by
  cases hrise : sclRising s
  · exact byteIncoming_of_open (by rwa [tick_counter_of_still hstart hrise])
  · exact fun _ => tick_of_sclRising hsettled hrise

/-- A complete byte is acknowledged: the clock is still high. -/
theorem ByteIncoming.tick_acknowledged (h : ByteIncoming s.cur) (hstart : start s = false) (hdone : s.cur.counter = 8#4) :
    AwaitsLow 8#4 (tick s).cur := by
  obtain ⟨hclock, hprev, -⟩ := h hdone
  exact ⟨(tick_counter_of_still hstart (sclRising_of_imp fun _ => hprev)).trans hdone, fun _ => hclock⟩

theorem AwaitsLow.tick_counter {c : BitVec 4} (h : AwaitsLow c s.cur) (hstart : start s = false) :
    (tick s).cur.counter = c :=
  (tick_counter_of_still hstart (sclRising_of_imp h.2)).trans h.1

theorem AwaitsLow.tick_high {c : BitVec 4} (h : AwaitsLow c s.cur) (hstart : start s = false) (hclock : s.cur.sclI = true) :
    AwaitsLow c (tick s).cur :=
  ⟨h.tick_counter hstart, fun _ => hclock⟩

theorem AwaitsLow.tick_low (h : AwaitsLow 8#4 s.cur) (hstart : start s = false) (hclock : s.cur.sclI = false) :
    AwaitsNinth (tick s).cur :=
  ⟨h.tick_counter hstart, hclock⟩

theorem AwaitsNinth.tick_low (h : AwaitsNinth s.cur) (hstart : start s = false) (hclock : s.cur.sclI = false) :
    AwaitsNinth (tick s).cur :=
  ⟨(tick_counter_of_still hstart (sclRising_of_low hclock)).trans h.1, hclock⟩

/-- The high clock is the ninth rising edge. -/
theorem AwaitsNinth.tick_high (h : AwaitsNinth s.cur) (hstart : start s = false) (hclock : s.cur.sclI = true) :
    AwaitsLow 0#4 (tick s).cur :=
  ⟨tick_counter_of_ninth hstart (sclRising_iff.mpr ⟨hclock, h.2⟩) h.1, fun _ => hclock⟩

/-- Where no override interferes, each row proposes the state whose place the counter takes. -/
theorem tick_framedIn_row (hsettled : SamplesSettled s) (hstart : start s = false) (h : FramedIn s.cur.state s.cur) :
    FramedIn (currentRow s).next (tick s).cur := by
  cases hstate : s.cur.state <;> rw [hstate] at h <;> simp only [currentRow, hstate]
  case waitStart => trivial
  case rcvAddress =>
    unfold rowRcvAddress
    split_ifs with hdone hown
    · exact ByteIncoming.tick_acknowledged h hstart (byteDone_iff.mp hdone)
    · trivial
    · exact tick_byteIncoming hsettled hstart (mt byteDone_iff.mpr hdone)
  case rcvOffset =>
    unfold rowRcvOffset
    split_ifs with hdone
    · exact ByteIncoming.tick_acknowledged h hstart (byteDone_iff.mp hdone)
    · exact tick_byteIncoming hsettled hstart (mt byteDone_iff.mpr hdone)
  case read =>
    unfold rowRead
    split_ifs with hclock hdone
    · exact fun _ _ => hclock
    all_goals
      have hcounter := tick_counter_of_still hstart (sclRising_of_low (eq_false_of_ne_true hclock))
    · exact hcounter.trans (byteDone_iff.mp hdone)
    · exact byteOutgoing_of_open (hcounter ▸ mt byteDone_iff.mpr hdone)
  case ackRead =>
    unfold rowAckRead
    split_ifs with hrise hnack
    · trivial
    · exact byteOutgoing_of_open (counter_ne_eight_of_zero (tick_counter_of_ninth hstart hrise h))
    · exact (tick_counter_of_still hstart (eq_false_of_ne_true hrise)).trans h
  case ackAddress0 | ackOffset0 =>
    simp only [rowAckAddress0, rowAckOffset0]
    split_ifs with hclock
    · exact AwaitsLow.tick_high h hstart hclock
    · exact AwaitsLow.tick_low h hstart (eq_false_of_ne_true hclock)
  case ackAddress1 | ackOffset1 =>
    simp only [rowAckAddress1, rowAckOffset1]
    split_ifs with hclock
    · exact AwaitsNinth.tick_high h hstart hclock
    · exact AwaitsNinth.tick_low h hstart (eq_false_of_ne_true hclock)
  case ackAddress2 =>
    have hopen := counter_ne_eight_of_zero (AwaitsLow.tick_counter h hstart)
    unfold rowAckAddress2
    split_ifs with hclock hread
    · exact AwaitsLow.tick_high h hstart hclock
    · exact byteOutgoing_of_open hopen
    · exact byteIncoming_of_open hopen
  case ackOffset2 =>
    unfold rowAckOffset2
    split_ifs with hclock
    · exact AwaitsLow.tick_high h hstart hclock
    · exact byteIncoming_of_open (counter_ne_eight_of_zero (AwaitsLow.tick_counter h hstart))

/-- Both overrides lead to a place that holds anyway: `WAIT_START` asks nothing of the counter, and START clears it. -/
theorem tick_framed (hsettled : SamplesSettled s) (h : Framed s) : Framed (tick s) := by
  rw [framed_iff, tick_state, nextState]
  split_ifs with hdisabled hstart
  · trivial
  · exact byteIncoming_of_open (counter_ne_eight_of_zero (tick_counter_of_start hstart))
  · exact tick_framedIn_row hsettled (eq_false_of_ne_true hstart) ((framed_iff s).mp h)

end Framing

theorem tickInvariant_framingKept : TickInvariant FramingKept where
  same h hsame := by rwa [FramingKept, SamplesSettled, Framed, hsame.cur]
  ticked h := by
    obtain ⟨hcounter, hsettled, hframed⟩ := h
    exact ⟨tick_counter_le hcounter, tick_samplesSettled _, tick_framed hsettled hframed⟩

/-- Settles O19: the framing is kept by a tick, hence by every step. -/
theorem framingIsKept : Obligations.FramingIsKept :=
  fun _ _ h hstep => tickInvariant_framingKept.after_step hstep h

end Sys2Proof.Proofs
end

section
/-! PROOFS. Proofs/EdidRows.lean: the statements of 42_edid_fsm.md part 1: the overrides, the eleven rows, the commit of the
state, and the engine while it is disabled. -/

namespace Sys2Proof.Proofs

open Sys2Proof.Machine Sys2Proof.Safety

/-! ## The next state (42_edid_fsm.md R150 to R152) -/

theorem nextState_eq_overridden (s : State) : nextState s = overridden s.cur (currentRow s).next := by
  simp only [nextState, overridden, Bool.not_eq_true']
  rfl

theorem stageOvrHpd_eq (s : State) (n : Regs) :
    stageOvrHpd s n = { n with state := if s.cur.hpdEn = false then .waitStart else n.state } := by
  simp only [stageOvrHpd, Bool.not_eq_true']

theorem stageOvrStart_eq (s : State) (n : Regs) : stageOvrStart s n =
    { n with state := if startSeen s.cur = true ∧ s.cur.hpdEn = true then .rcvAddress else n.state } := by
  simp only [stageOvrStart, Bool.and_eq_true, start_eq_startSeen]

/-- Settles O22: each override stages `state` alone, under its own condition. -/
theorem overridesSetState : Obligations.OverridesSetState := fun s =>
  ⟨next_stage (stageOvrHpd_eq s s.nxt), next_stage (stageOvrStart_eq s s.nxt)⟩

/-! ## Performing the row of the present state (R108, R150)

A row performed in its state is known by three things: what it yields, what its strobes command, and whether it asks for the
line. -/

/-- The primed registers with what a row's strobes command. -/
def commanded (row : Row) (s : State) (n : Regs) : Regs :=
  { n with
    isRead := if row.updateIsRead then rxRw s else n.isRead
    offset := if !row.ocLoad && row.ocInc then s.cur.offset + 1#7 else if row.ocLoad then rxOff s else n.offset
    dataBit := if row.dataDrvEn then bitToSend s else n.dataBit
    dataDrv := if row.dataDrvEn then true else if row.dataDrvStop then false else n.dataDrv }

theorem stageStrobes_eq_commanded (s : State) (n : Regs) : stageStrobes s n = commanded (currentRow s) s n :=
  stageStrobes_eq s n

/-- A row that raises no strobe commands nothing. -/
theorem commanded_quietRow (next : EdidState) (s : State) (n : Regs) : commanded (quietRow next) s n = n := rfl

@[simp] theorem quietRow_next (next : EdidState) : (quietRow next).next = next := rfl

theorem performRow_eq_afterRow {k : EdidState} {s : State} {row : Row} {zero : Bool} (hstate : s.cur.state = k)
    (hrow : currentRow s = row) (hzero : zeroDrv s = zero) :
    (.next (performRow k s) : Result) = .next (afterRow s (commanded row s s.nxt) row zero) := by
  have hstage : stageRow s s.nxt = { commanded row s s.nxt with state := overridden s.cur row.next } := by
    rw [← hrow, ← stageStrobes_eq_commanded, ← nextState_eq_overridden, stageRow_eq, stageStrobes_eq]
  have hdrive : driveRow s s.wires = (afterRow s (commanded row s s.nxt) row zero).wires := by
    rw [driveRow, nextState_eq_overridden, hrow, hzero]
    rfl
  have hperform : performRow k s = inTick s (stageRow s s.nxt) (driveRow s s.wires) :=
    performRow_inTick_selected s.nxt s.wires hstate
  rw [hperform, hstage, hdrive]
  rfl

/-- A row without a strobe assigns `state` only. -/
theorem performRow_quiet {k next : EdidState} {s : State} {zero : Bool} (hstate : s.cur.state = k)
    (hrow : currentRow s = quietRow next) (hzero : zeroDrv s = zero) :
    (.next (performRow k s) : Result) = .next (afterRow s s.nxt (quietRow next) zero) :=
  commanded_quietRow next s s.nxt ▸ performRow_eq_afterRow hstate hrow hzero

/-- The same level tested for high and for low. -/
theorem ite_low_eq_ite_high {α : Type} (level : Bool) (high low : α) :
    (if level = false then low else high) = if level = true then high else low := by
  cases level <;> rfl

section Rows
variable {s : State}

/-! ### What the rows yield -/

theorem currentRow_of_waitStart (h : s.cur.state = .waitStart) : currentRow s = quietRow .waitStart := by
  simp only [currentRow, h, rowWaitStart]

theorem currentRow_of_rcvAddress_open (h : s.cur.state = .rcvAddress) (hopen : s.cur.counter ≠ 8#4) :
    currentRow s = quietRow .rcvAddress := by
  simp only [currentRow, h, rowRcvAddress, byteDone_iff, if_neg hopen]

theorem currentRow_of_rcvAddress_own (h : s.cur.state = .rcvAddress) (hdone : s.cur.counter = 8#4)
    (hown : s.cur.din.extractLsb' 1 7 = 0x50#7) :
    currentRow s = { quietRow .ackAddress0 with updateIsRead := true } := by
  simp only [currentRow, h, rowRcvAddress, byteDone_iff, addrMatch_iff, if_pos hdone, if_pos hown]

theorem currentRow_of_rcvAddress_other (h : s.cur.state = .rcvAddress) (hdone : s.cur.counter = 8#4)
    (hother : s.cur.din.extractLsb' 1 7 ≠ 0x50#7) : currentRow s = quietRow .waitStart := by
  simp only [currentRow, h, rowRcvAddress, byteDone_iff, addrMatch_iff, if_pos hdone, if_neg hother]

theorem currentRow_of_rcvOffset_open (h : s.cur.state = .rcvOffset) (hopen : s.cur.counter ≠ 8#4) :
    currentRow s = quietRow .rcvOffset := by
  simp only [currentRow, h, rowRcvOffset, byteDone_iff, if_neg hopen]

theorem currentRow_of_rcvOffset_done (h : s.cur.state = .rcvOffset) (hdone : s.cur.counter = 8#4) :
    currentRow s = { quietRow .ackOffset0 with ocLoad := true } := by
  simp only [currentRow, h, rowRcvOffset, byteDone_iff, if_pos hdone]

theorem currentRow_of_read_high (h : s.cur.state = .read) (hclock : s.cur.sclI = true) :
    currentRow s = quietRow .read := by
  simp only [currentRow, h, rowRead, if_pos hclock]

theorem currentRow_of_read_done (h : s.cur.state = .read) (hclock : s.cur.sclI = false) (hdone : s.cur.counter = 8#4) :
    currentRow s = { quietRow .ackRead with dataDrvStop := true } := by
  simp only [currentRow, h, rowRead, hclock, byteDone_iff, if_pos hdone, Bool.false_eq_true, if_false]

theorem currentRow_of_read_open (h : s.cur.state = .read) (hclock : s.cur.sclI = false) (hopen : s.cur.counter ≠ 8#4) :
    currentRow s = { quietRow .read with dataDrvEn := true } := by
  simp only [currentRow, h, rowRead, hclock, byteDone_iff, if_neg hopen, Bool.false_eq_true, if_false]

theorem currentRow_of_ackRead_rising (h : s.cur.state = .ackRead) (hrise : clockRises s.cur = true) :
    currentRow s = { quietRow (if s.cur.sdaI = true then .waitStart else .read) with ocInc := true } := by
  have hrise' : sclRising s = true := hrise
  simp only [currentRow, h, rowAckRead, if_pos hrise']

theorem currentRow_of_ackRead_still (h : s.cur.state = .ackRead) (hstill : clockRises s.cur = false) :
    currentRow s = quietRow .ackRead := by
  have hstill' : sclRising s = false := hstill
  simp only [currentRow, h, rowAckRead, hstill', Bool.false_eq_true, if_false]

/-- The acknowledge request, in a given state (R167). -/
theorem zeroDrv_of_state {k : EdidState} (h : s.cur.state = k) : zeroDrv s =
    decide (k = .ackAddress1 ∨ k = .ackAddress2 ∨ k = .ackOffset1 ∨ k = .ackOffset2) := by
  rw [zeroDrv_eq_decide, h]

/-- What `READ` commands with a bit to send: it is latched and driven (41_byte_engine.md R138, R139). -/
theorem commanded_of_read_open (hle : s.cur.counter.toNat ≤ 8) (hopen : s.cur.counter ≠ 8#4) (n : Regs) :
    commanded { quietRow .read with dataDrvEn := true } s n =
      { n with dataDrv := true, dataBit := (memRead s s.cur.offset).getLsbD (7 - s.cur.counter.toNat) } := by
  rw [← bitToSend_of_open hle hopen]
  rfl

end Rows

/-- Settles O23: a complete byte that is taken raises its register's strobe; the other rows are quiet. -/
theorem receivingRows : Obligations.ReceivingRows := fun _ =>
  ⟨fun h => performRow_quiet h (currentRow_of_waitStart h) (zeroDrv_of_state h),
    fun h hopen => performRow_quiet h (currentRow_of_rcvAddress_open h hopen) (zeroDrv_of_state h),
    fun h hdone hown => performRow_eq_afterRow h (currentRow_of_rcvAddress_own h hdone hown) (zeroDrv_of_state h),
    fun h hdone hother => performRow_quiet h (currentRow_of_rcvAddress_other h hdone hother) (zeroDrv_of_state h),
    fun h hopen => performRow_quiet h (currentRow_of_rcvOffset_open h hopen) (zeroDrv_of_state h),
    fun h hdone => performRow_eq_afterRow h (currentRow_of_rcvOffset_done h hdone) (zeroDrv_of_state h)⟩

/-- Settles O24: no row of the chains raises a strobe, and each follows the level of the clock sample. -/
theorem acknowledgeRows : Obligations.AcknowledgeRows := by
  intro s
  simp only [ite_low_eq_ite_high]
  refine ⟨fun h => ?_, fun h => ?_, fun h => ?_, fun h => ?_, fun h => ?_, fun h => ?_⟩ <;>
    exact performRow_quiet h (by simp only [currentRow, h]; rfl) (zeroDrv_of_state h)

/-- Settles O25: `READ` by the clock's level and the counter, `ACK_READ` by the rising edge. -/
theorem readingRows : Obligations.ReadingRows := fun _ hle =>
  ⟨fun h hclock => performRow_quiet h (currentRow_of_read_high h hclock) (zeroDrv_of_state h),
    fun h hclock hdone => performRow_eq_afterRow h (currentRow_of_read_done h hclock hdone) (zeroDrv_of_state h),
    fun h hclock hopen => commanded_of_read_open hle hopen _ ▸
      performRow_eq_afterRow h (currentRow_of_read_open h hclock hopen) (zeroDrv_of_state h),
    fun h hrise => performRow_eq_afterRow h (currentRow_of_ackRead_rising h hrise) (zeroDrv_of_state h),
    fun h hstill => performRow_quiet h (currentRow_of_ackRead_still h hstill) (zeroDrv_of_state h)⟩

/-! ## The commit of the state (R150, R166, R168) -/

/-- The next state each row proposes, from the registers alone. -/
theorem currentRow_next (s : State) : (currentRow s).next =
    match s.cur.state with
    | .waitStart => .waitStart
    | .rcvAddress =>
      if s.cur.counter = 8#4 then (if s.cur.din.extractLsb' 1 7 = 0x50#7 then .ackAddress0 else .waitStart)
      else .rcvAddress
    | .ackAddress0 => if s.cur.sclI = false then .ackAddress1 else .ackAddress0
    | .ackAddress1 => if s.cur.sclI = true then .ackAddress2 else .ackAddress1
    | .ackAddress2 => if s.cur.sclI = false then (if s.cur.isRead = true then .read else .rcvOffset) else .ackAddress2
    | .rcvOffset => if s.cur.counter = 8#4 then .ackOffset0 else .rcvOffset
    | .ackOffset0 => if s.cur.sclI = false then .ackOffset1 else .ackOffset0
    | .ackOffset1 => if s.cur.sclI = true then .ackOffset2 else .ackOffset1
    | .ackOffset2 => if s.cur.sclI = false then .rcvAddress else .ackOffset2
    | .read => if s.cur.sclI = false ∧ s.cur.counter = 8#4 then .ackRead else .read
    | .ackRead => if clockRises s.cur = true then (if s.cur.sdaI = true then .waitStart else .read) else .ackRead := by
  cases h : s.cur.state
  case rcvAddress =>
    by_cases hdone : s.cur.counter = 8#4
    · by_cases hown : s.cur.din.extractLsb' 1 7 = 0x50#7
      · simp [currentRow_of_rcvAddress_own h hdone hown, hdone, hown]
      · simp [currentRow_of_rcvAddress_other h hdone hown, hdone, hown]
    · simp [currentRow_of_rcvAddress_open h hdone, hdone]
  case rcvOffset =>
    by_cases hdone : s.cur.counter = 8#4
    · simp [currentRow_of_rcvOffset_done h hdone, hdone]
    · simp [currentRow_of_rcvOffset_open h hdone, hdone]
  case read =>
    cases hclock : s.cur.sclI
    · by_cases hdone : s.cur.counter = 8#4
      · simp [currentRow_of_read_done h hclock hdone, hdone]
      · simp [currentRow_of_read_open h hclock hdone, hdone]
    · simp [currentRow_of_read_high h hclock]
  case ackRead =>
    cases hrise : clockRises s.cur
    · simp [currentRow_of_ackRead_still h hrise]
    · simp [currentRow_of_ackRead_rising h hrise]
  all_goals
    simp only [currentRow, h, ite_low_eq_ite_high]
    rfl

/-- Settles O27: the tick commits the row's proposal under the overrides; no other register and no other wire reads the enable
bit, and of those that read the previous data sample all but `state` are the ones named. -/
theorem stateCommit : Obligations.StateCommit := by
  intro s
  refine ⟨?_, fun _ => ⟨rfl, rfl⟩, fun _ => ⟨rfl, rfl⟩⟩
  exact (nextState_eq_overridden s).trans (congrArg (overridden s.cur) (currentRow_next s))

/-! ## A disabled engine (R151) -/

theorem nextState_of_disabled {s : State} (h : s.cur.hpdEn = false) : nextState s = .waitStart := by
  rw [nextState_eq_overridden, overridden, if_pos h]

theorem tick_disabled {s : State} (h : s.cur.hpdEn = false) (hwrite : s.now.hpdEnWe = true → s.now.hpdEnWdata = false) :
    (tick s).cur.hpdEn = false := by
  rw [tick_hpdEn]
  split_ifs with hwe
  · exact hwrite hwe
  · exact h

/-- While software writes no 1, a disabled engine stays disabled. -/
theorem ticks_disabled {k : Nat} {s : State} (h : s.cur.hpdEn = false)
    (hwrite : ∀ j, j < k → (ticks j s).now.hpdEnWe = true → (ticks j s).now.hpdEnWdata = false) :
    (ticks k s).cur.hpdEn = false := by
  induction k with
  | zero => exact h
  | succ k ih =>
    rw [ticks_succ]
    exact tick_disabled (ih fun j hj => hwrite j (Nat.lt_succ_of_lt hj)) (hwrite k k.lt_succ_self)

/-- Settles O28: before each of the ticks the engine is disabled, so the tick enters `WAIT_START`, where no acknowledge is
asked for. -/
theorem disabledEngineWaits : Obligations.DisabledEngineWaits := by
  intro k s h hwrite j hfirst hlast
  obtain ⟨i, rfl⟩ := Nat.exists_eq_add_of_le' hfirst
  have hdisabled : ∀ m, m ≤ k → (ticks m s).cur.hpdEn = false :=
    fun m hm => ticks_disabled h fun j hj => hwrite j (Nat.lt_of_lt_of_le hj hm)
  have hwaits : (ticks (i + 1) s).cur.state = .waitStart := by
    rw [ticks_succ, tick_state, nextState_of_disabled (hdisabled i (Nat.le_of_succ_le hlast))]
  exact ⟨hwaits, hdisabled _ hlast, (congrArg Wires.zeroDrv (tick_wires _)).trans (zeroDrv_of_state hwaits)⟩

end Sys2Proof.Proofs
end

section
/-! PROOFS. Proofs/EdidBus.lean: the statements of 42_edid_fsm.md part 2: what START, an address byte, an offset byte, a byte read,
the master's acknowledge and STOP make of the engine, and what they leave alone. -/

namespace Sys2Proof.Proofs

open Sys2Proof.Machine Sys2Proof.Safety Sys2Proof.Laws

/-! ## What the waveform leaves alone -/

/-- What `n` ticks under the master's levels leave, whatever the engine does; `n` is a multiple of the sampling period. -/
structure Carried (s t : State) (n : Nat) : Prop where
  mem : t.mem = s.mem
  params : t.params = s.params
  script : t.script = s.script
  swResult : t.swResult = s.swResult
  tick : t.tick = s.tick + n
  sampCount : t.cur.sampCount = s.cur.sampCount

section Carry
variable {s t u : State} {m n : Nat}

theorem Carried.busKept (h : Carried s t n) (hen : Enabled t) : BusKept s t n :=
  ⟨h.mem, h.params, h.script, h.swResult, h.tick, h.sampCount, hen⟩

theorem Carried.trans (h : Carried s t m) (h' : Carried t u n) : Carried s u (m + n) where
  mem := h'.mem.trans h.mem
  params := h'.params.trans h.params
  script := h'.script.trans h.script
  swResult := h'.swResult.trans h.swResult
  tick := by rw [h'.tick, h.tick, Nat.add_assoc]
  sampCount := h'.sampCount.trans h.sampCount

theorem Carried.withMasterByte (h : Carried s t n) (b : Byte) : Carried s { t with masterByte := b } n :=
  ⟨h.mem, h.params, h.script, h.swResult, h.tick, h.sampCount⟩

theorem Carried.withMasterAck (h : Carried s t n) (b : Bool) : Carried s { t with masterAck := b } n :=
  ⟨h.mem, h.params, h.script, h.swResult, h.tick, h.sampCount⟩

theorem carried_quarter (c d : Bool) (s : State) : Carried s (quarter c d s) 128 where
  mem := holdLines_mem _ c d s
  params := holdLines_params _ c d s
  script := holdLines_script _ c d s
  swResult := holdLines_swResult _ c d s
  tick := holdLines_tick _ c d s
  sampCount := quarter_sampCount c d s

theorem carried_sendBit (b : Bool) (s : State) : Carried s (sendBit b s) 512 :=
  (((carried_quarter false b s).trans (carried_quarter true b _)).trans (carried_quarter true b _)).trans
    (carried_quarter false b _)

theorem carried_clockPeriod (s : State) : Carried s (afterRead (readPoint s)) 512 := carried_sendBit true s

theorem carried_readBit (s : State) : Carried s (readBit s) 512 := (carried_clockPeriod s).withMasterByte _

theorem carried_readAck (s : State) : Carried s (readAck s) 512 := (carried_clockPeriod s).withMasterAck _

theorem carried_sendBits (bits : List Bool) (s : State) : Carried s (sendBits bits s) (bits.length * 512) := by
  induction bits generalizing s with
  | nil => exact ⟨rfl, rfl, rfl, rfl, rfl, rfl⟩
  | cons bit bits ih =>
    have hsent := (carried_sendBit bit s).trans (ih (sendBit bit s))
    rwa [Nat.add_comm, ← Nat.add_one_mul] at hsent

theorem carried_sendByte (b : Byte) (s : State) : Carried s (sendByte b s) 4608 := by
  have hlength : (wireBits b).length = 8 := rfl
  have hbits := carried_sendBits (wireBits b) s
  rw [hlength] at hbits
  exact hbits.trans (carried_readAck _)

theorem carried_readBits (k : Nat) (s : State) : Carried s (readBits k s) (k * 512) := by
  induction k generalizing s with
  | zero => exact ⟨rfl, rfl, rfl, rfl, (Nat.zero_mul 512).symm ▸ rfl, rfl⟩
  | succ k ih =>
    have hread := (carried_readBit s).trans (ih (readBit s))
    rwa [Nat.add_comm, ← Nat.add_one_mul] at hread

theorem carried_startCondition (s : State) : Carried s (startCondition s) 256 :=
  (carried_quarter true false s).trans (carried_quarter false false _)

theorem carried_repeatedStart (s : State) : Carried s (repeatedStart s) 512 :=
  (((carried_quarter false true s).trans (carried_quarter true true _)).trans (carried_quarter true false _)).trans
    (carried_quarter false false _)

theorem carried_stopCondition (s : State) : Carried s (stopCondition s) 384 :=
  ((carried_quarter false false s).trans (carried_quarter true false _)).trans (carried_quarter true true _)

end Carry

/-! ## What the master has read -/

section Master
variable (s : State)

@[simp] theorem quarter_masterByte (c d : Bool) : (quarter c d s).masterByte = s.masterByte := by simp [quarter]
@[simp] theorem quarter_masterAck (c d : Bool) : (quarter c d s).masterAck = s.masterAck := by simp [quarter]

theorem masterKept_sendBit (b : Bool) : MasterKept s (sendBit b s) := by simp [MasterKept, sendBit]

theorem masterKept_startCondition : MasterKept s (startCondition s) := by simp [MasterKept, startCondition]

theorem masterKept_repeatedStart : MasterKept s (repeatedStart s) := by simp [MasterKept, repeatedStart]

theorem masterKept_stopCondition : MasterKept s (stopCondition s) := by simp [MasterKept, stopCondition]

@[simp] theorem sendByte_masterByte (b : Byte) : (sendByte b s).masterByte = s.masterByte := by
  have hbits : (sendBits (wireBits b) s).masterByte = s.masterByte :=
    sendBits_induct (P := fun t => t.masterByte = s.masterByte) (fun _ _ _ h => h) (wireBits b) rfl
  simpa [sendByte, readAck, afterRead, readPoint] using hbits

@[simp] theorem readBits_masterAck (k : Nat) : (readBits k s).masterAck = s.masterAck := by
  induction k generalizing s with
  | zero => rfl
  | succ k ih => rw [readBits, ih]; simp [readBit, afterRead, readPoint]

end Master

/-! ## The event over several operations (43_hpd_event_csr.md R210) -/

section Event
variable {s t u : State} {r : Regs} {line : Bool}

theorem eventKept_trans (h : EventKept s u) (h' : EventKept u t) : EventKept s t := by
  obtain ⟨hpending, hcaptured, -⟩ := h
  obtain ⟨hpending', hcaptured', hedge⟩ := h'
  exact ⟨hpending'.trans hpending, hcaptured'.trans hcaptured, hedge⟩

theorem eventRaised_of_kept (h : EventRaised line u) (h' : EventKept u t) : EventRaised line t := by
  obtain ⟨hpending, hcaptured, -⟩ := h
  obtain ⟨hpending', hcaptured', hedge⟩ := h'
  exact ⟨hpending'.trans hpending, hcaptured'.trans hcaptured, hedge⟩

theorem Settled.state (h : Settled s r t) : t.cur.state = r.state := by
  obtain ⟨hstate, -⟩ := engineRegs_eq_iff.mp h.regs
  exact hstate

theorem Settled.eventKept (h : Settled s r t) (hsame : s.cur.state = .waitStart ↔ r.state = .waitStart) : EventKept s t :=
  h.event.1 (by rwa [h.state])

theorem Settled.eventRaised (h : Settled s r t) (hmoved : ¬(s.cur.state = .waitStart ↔ r.state = .waitStart)) :
    EventRaised (decide (r.state ≠ .waitStart)) t := by
  rw [← h.state] at hmoved ⊢
  exact h.event.2 hmoved

/-- A new operation begins where the last one ended. -/
theorem Settled.rebase (h : Settled s r u) : Settled u r u :=
  ⟨⟨h.regs, rfl, h.enabled⟩, eventFollows_refl (eventFollows_iff.mp h.event).1⟩

theorem Settled.driveKept (h : Settled s r t) (hdrv : r.dataDrv = s.cur.dataDrv) (hbit : r.dataBit = s.cur.dataBit) :
    DriveKept s t := by
  obtain ⟨-, -, -, -, -, hdrv', hbit'⟩ := engineRegs_eq_iff.mp h.regs
  exact ⟨hdrv'.trans hdrv, hbit'.trans hbit⟩

end Event

/-! ## The engine at the start of an operation -/

section Beginning
variable {s : State} {r : Regs}

theorem pulls_eq_sdaOe (s : State) : pulls s.cur = sdaOe s := by rw [pulls, sdaOe, zeroDrv_eq_decide]

/-- Outside the acknowledge states the drive latch alone decides. -/
theorem pulls_eq_false_of_zeroDrv (hzero : zeroDrv s = false) (h : NotPulling s) : pulls s.cur = false := by
  rw [pulls_eq_sdaOe, sdaOe, hzero, Bool.false_or]
  cases hdrv : s.cur.dataDrv
  · rfl
  · rw [h hdrv]; rfl

/-- With the clock low a framed engine is in no tick of transition (41_byte_engine.md R132). -/
theorem inFrame_of_framed (hclock : ClockLow s) (hle : s.cur.counter.toNat ≤ 8) (h : Framed s) : InFrame s.cur := by
  have hlow : s.cur.sclI = false := hclock.2.2.1
  rw [framed_iff] at h
  refine ⟨hle, ?_, ?_⟩
  · rintro (hstate | hstate | hstate | hstate) <;> rw [hstate] at h
    · exact fun hdone => Bool.false_ne_true (hlow.symm.trans (h hdone).1)
    · exact fun hdone => Bool.false_ne_true (hlow.symm.trans (h hdone).1)
    · exact counter_ne_eight_of_zero h.1
    · exact counter_ne_eight_of_zero h.1
  · rintro (hstate | hstate | hstate | hstate) <;> rw [hstate] at h <;> exact h.1

theorem lowPhase_of_addressed_write (s : State) (hstate : r.state = .ackAddress2) (hwrite : r.isRead = false) :
    lowPhase s r = { r with state := .rcvOffset } := by
  simp [lowPhase, hstate, hwrite]

/-- `READ` at the low clock with the counter at 0: the byte's first bit. -/
theorem readLow_first (s : State) (hcounter : r.counter = 0#4) : readLow s r =
    { r with state := .read, dataDrv := true, dataBit := (memRead s r.offset).getLsbD 7 } := by
  simp [readLow, hcounter]

end Beginning

/-! ## Address and offset bytes (42_edid_fsm.md R171 to R174) -/

/-- Settles O52: the acknowledged byte, and the low clock after it, from which a write waits for the offset and a read presents
its first bit. -/
theorem addressMatches : Obligations.AddressMatches := by
  intro s hclock hen hnot hedge hstate hcounter
  have hfree := pulls_eq_false_of_zeroDrv (zeroDrv_of_state hstate) hnot
  have hsent := fun rw => sendByte_own (addressByte Config.slaveAddr rw) (settled_refl hen hedge) hclock hstate hcounter
    hfree (by simp [hstate]) (addressByte_addr _ _)
  constructor
  · obtain ⟨hlow, hsettled, hack⟩ := hsent false
    rw [addressByte_rw, lowPhase_of_addressed_write s rfl rfl] at hsettled
    obtain ⟨hstate', hcounter', hdin, hread, hoffset, -, -⟩ := engineRegs_eq_iff.mp hsettled.regs
    exact ⟨_, rfl, (carried_sendByte _ s).busKept hsettled.enabled, hlow, hstate', hcounter', hdin, hread, hoffset,
      hsettled.driveKept rfl rfl, hsettled.eventKept (by simp [hstate]), hack, sendByte_masterByte s _⟩
  · obtain ⟨hlow, hsettled, hack⟩ := hsent true
    rw [addressByte_rw, lowPhase_eq_readLow s (.inr ⟨rfl, rfl⟩), readLow_first s rfl] at hsettled
    obtain ⟨hstate', hcounter', hdin, hread, hoffset, hdrv, hbit⟩ := engineRegs_eq_iff.mp hsettled.regs
    exact ⟨_, rfl, (carried_sendByte _ s).busKept hsettled.enabled, hlow, hstate', hcounter', hdin, hread, hoffset,
      ⟨hdrv, hbit⟩, hsettled.eventKept (by simp [hstate]), hack, sendByte_masterByte s _⟩

/-- An address that is not the engine's own is not acknowledged (R154): the engine is in `WAIT_START` before the ninth clock. -/
theorem sendByte_other {s : State} (b : Byte) (hclock : ClockLow s) (hen : Enabled s) (hedge : NoEdge s)
    (hstate : s.cur.state = .rcvAddress) (hcounter : s.cur.counter = 0#4) (hfree : pulls s.cur = false)
    (hother : b.extractLsb' 1 7 ≠ 0x50#7) :
    let t := sendByte b s
    ClockLow t ∧ Enabled t ∧ engineRegs t.cur = engineRegs { s.cur with state := .waitStart, counter := 0#4, din := b } ∧
      EventRaised false t ∧ t.masterAck = true := by
  obtain ⟨hlow, hsettled⟩ := sendBits_byte b (settled_refl hen hedge) hclock (.inl hstate) hcounter hfree (by simp [hstate])
  have hmissed : lowPhase s (highTick { s.cur with counter := 8#4, din := b }) =
      { s.cur with state := .waitStart, counter := 8#4, din := b } := by
    simp [highTick, hstate, hother, lowPhase]
  rw [hmissed] at hsettled
  have hreleased : pulls { s.cur with state := .waitStart, counter := 8#4, din := b } = false := by
    simpa [pulls, hstate] using hfree
  obtain ⟨hlow', hsettled', hnack⟩ := readAck_settled (v := true) hsettled.rebase ⟨by simp, by simp, by simp⟩ hlow
    (by simp [hsettled.state]) (by simp only [lowPhase, hreleased]; rfl)
  exact ⟨hlow', hsettled'.enabled, hsettled'.regs,
    eventRaised_of_kept (hsettled.eventRaised (by simp [hstate]))
      (hsettled'.eventKept (by simp [hsettled.state, lowPhase, highPhase])), hnack⟩

/-- Settles O53: the byte's address is the operand, so it is not the engine's own. -/
theorem addressMisses : Obligations.AddressMisses := by
  intro s addr rw hclock hen hnot hedge hstate hcounter hother
  have hfree := pulls_eq_false_of_zeroDrv (zeroDrv_of_state hstate) hnot
  obtain ⟨hlow, henabled, hregs, hraised, hnack⟩ := sendByte_other (addressByte addr rw) hclock hen hedge hstate hcounter hfree
    (by rwa [addressByte_addr])
  obtain ⟨hstate', hcounter', hdin, hread, hoffset, hdrv, hbit⟩ := engineRegs_eq_iff.mp hregs
  exact ⟨_, rfl, (carried_sendByte _ s).busKept henabled, hlow, hstate', hcounter', hdin, hread, hoffset, ⟨hdrv, hbit⟩,
    hraised, hnack, sendByte_masterByte s _⟩

/-- Settles O54: the loaded offset is the byte's low seven bits, whatever its bit 7. -/
theorem offsetByteLoads : Obligations.OffsetByteLoads := by
  intro s ignored off hclock hen hnot hedge hstate hcounter
  have hfree := pulls_eq_false_of_zeroDrv (zeroDrv_of_state hstate) hnot
  obtain ⟨hlow, hsettled, hack⟩ := sendByte_offset (offsetByte ignored off) (settled_refl hen hedge) hclock hstate hcounter
    hfree (by simp [hstate])
  rw [offsetByte_off] at hsettled
  obtain ⟨hstate', hcounter', hdin, hread, hoffset, -, -⟩ := engineRegs_eq_iff.mp hsettled.regs
  exact ⟨_, rfl, (carried_sendByte _ s).busKept hsettled.enabled, hlow, hstate', hcounter', hdin, hread, hoffset,
    hsettled.driveKept rfl rfl, hsettled.eventKept (by simp [hstate]), hack, sendByte_masterByte s _⟩

/-! ## Reading (R175, R177, R178) -/

/-- Settles O55: eight periods present the byte's bits, which the engine's own shift register takes in too. -/
theorem byteIsRead : Obligations.ByteIsRead := by
  intro s hclock hen hedge hstate hcounter
  obtain ⟨hlow, hsettled, hbyte⟩ := readBits_byte hclock hen hedge hstate hcounter
  obtain ⟨hstate', hcounter', hdin, hread, hoffset, hdrv, hbit⟩ := engineRegs_eq_iff.mp hsettled.regs
  exact ⟨_, rfl, (carried_readBits 8 s).busKept hsettled.enabled, hlow, hbyte, readBits_masterAck s 8, hstate', hcounter',
    hdin.trans (shiftIn_wireBits _ _), hread, hoffset, hdrv, hbit, hsettled.eventKept (by simp [hstate, reading])⟩

/-- Settles O56: the ninth clock moves the offset on; with the next low clock an ACK presents the next byte's first bit, and after
a NACK nothing waits for the clock. -/
theorem masterAcknowledges : Obligations.MasterAcknowledges := by
  intro s hclock hen hnot hedge hstate hcounter
  have hfree := pulls_eq_false_of_zeroDrv (zeroDrv_of_state hstate) hnot
  have hsent := fun bit => sendBit_acknowledge bit ⟨hclock, hen, hedge, hstate, hcounter⟩ hfree
  constructor
  · obtain ⟨hlow, hsettled⟩ := hsent false
    rw [lowPhase_eq_readLow s (.inl rfl), readLow_first s rfl] at hsettled
    obtain ⟨hstate', hcounter', hdin, hread, hoffset, hdrv, hbit⟩ := engineRegs_eq_iff.mp hsettled.regs
    exact ⟨_, rfl, (carried_sendBit false s).busKept hsettled.enabled, hlow, masterKept_sendBit s false, hstate', hcounter', hdin,
      hread, hoffset, ⟨hdrv, hbit⟩, hsettled.eventKept (by simp [hstate])⟩
  · obtain ⟨hlow, hsettled⟩ := hsent true
    obtain ⟨hstate', hcounter', hdin, hread, hoffset, -, -⟩ := engineRegs_eq_iff.mp hsettled.regs
    exact ⟨_, rfl, (carried_sendBit true s).busKept hsettled.enabled, hlow, masterKept_sendBit s true, hstate', hcounter', hdin,
      hread, hoffset, hsettled.driveKept rfl rfl, hsettled.eventRaised (by simp [hstate, lowPhase])⟩

/-! ## STOP (R176) -/

/-- Settles O57: a low phase and a rising edge with a 0; then the data line rises or, where the engine holds it, stays low. -/
theorem stopIsNotDecoded : Obligations.StopIsNotDecoded := by
  intro s hclock hen hedge hle hframed risen
  have hframe := inFrame_of_framed hclock hle hframed
  obtain ⟨hhigh, hdata, hsettled⟩ :=
    halfPeriod_rise (d := false) (v := false) (settled_refl hen hedge) hframe hclock Iff.rfl rfl
  have hstable : highTick risen = risen := highTick_highPhase false _
  have hlast : ClockAt true (stopCondition s) ∧ DataAt (!pulls risen) (stopCondition s) ∧ Settled s risen (stopCondition s) := by
    cases hpulls : pulls risen
    · exact quarter_release hsettled hstable hhigh hdata hpulls
    · exact quarter_high hsettled hstable hhigh hdata (congrArg (true && !·) hpulls).symm
  obtain ⟨hhigh', hdata', hsettled'⟩ := hlast
  exact ⟨_, rfl, (carried_stopCondition s).busKept hsettled'.enabled, hhigh', hdata', masterKept_stopCondition s,
    hsettled'.regs, hsettled'.event⟩

/-! ## START from an idle bus (R170, R166) -/

/-- No received byte waits for its row: the one tick at counter 8 of `RCV_ADDRESS` and `RCV_OFFSET` is not this one. -/
def ByteAwaited (r : Regs) : Prop := ¬(r.counter = 8#4 ∧ (r.state = .rcvAddress ∨ r.state = .rcvOffset))

section IdleStart
variable {s : State} {r : Regs}

/-- A second tick at the high clock adds nothing to the first. -/
theorem highTick_highTick (r : Regs) : highTick (highTick r) = highTick r := by
  cases hstate : r.state
  case rcvAddress =>
    by_cases hdone : r.counter = 8#4
    · by_cases hown : r.din.extractLsb' 1 7 = 0x50#7 <;> simp [highTick, hstate, hdone, hown]
    · simp [highTick, hstate, hdone]
  case rcvOffset => by_cases hdone : r.counter = 8#4 <;> simp [highTick, hstate, hdone]
  all_goals simp [highTick, hstate]

/-- With no byte waiting the high clock moves at most an acknowledge chain on, by the state alone. -/
theorem highTick_eq_of_byteAwaited (h : ByteAwaited r) : highTick r = r ∨
    r.state = .ackAddress1 ∧ highTick r = { r with state := .ackAddress2 } ∨
    r.state = .ackOffset1 ∧ highTick r = { r with state := .ackOffset2 } := by
  cases hstate : r.state
  case rcvAddress | rcvOffset =>
    have hopen : r.counter ≠ 8#4 := fun hdone => h ⟨hdone, by simp [hstate]⟩
    simp [highTick, hstate, hopen]
  all_goals simp [highTick, hstate]

theorem highTick_waiting (h : ByteAwaited r) : (highTick r).state = .waitStart ↔ r.state = .waitStart := by
  rcases highTick_eq_of_byteAwaited h with heq | ⟨hstate, heq⟩ | ⟨hstate, heq⟩ <;> simp [*]

/-- A START forgets which state it met. -/
theorem highTick_restarted (h : ByteAwaited r) :
    { highTick r with state := .rcvAddress, counter := 0#4 } = { r with state := .rcvAddress, counter := 0#4 } := by
  rcases highTick_eq_of_byteAwaited h with heq | ⟨-, heq⟩ | ⟨-, heq⟩ <;> rw [heq]

/-- The data line falls on an idle bus. An acknowledge chain moves on in the first tick; from the second on the engine stands
still until the samples show the START. -/
theorem quarter_start_idle (hidle : BusIdle s) (hen : Enabled s) (hedge : NoEdge s) (hbyte : ByteAwaited s.cur) :
    ClockAt true (quarter true false s) ∧ DataAt false (quarter true false s) ∧
      Settled s { s.cur with state := .rcvAddress, counter := 0#4 } (quarter true false s) := by
  obtain ⟨hclock, hdata⟩ := hidle
  have hwaiting := highTick_waiting hbyte
  have hsettled := settled_refl hen hedge
  obtain ⟨hhigh, hlow, n, hlong, hafter⟩ := quarter_data_edge (c := true) (d := false) (v := false)
    (P := fun u => u = s ∨ Settled s (highTick s.cur) u)
    (R := AfterPulse s { s.cur with state := .rcvAddress, counter := 0#4 } { s.cur with state := .rcvAddress, counter := 0#4 })
    hclock hdata (fun _ _ => rfl) (.inl rfl)
    (fun u h hclock hI hR => by
      have hstart := start_of_same (hR.trans hI.symm)
      rcases h with rfl | h
      · exact .inr (hsettled.tick (hsettled.toShows.tick_high hstart hclock.2.2.1 hclock.2.2.2 true false) hwaiting)
      · exact .inr (h.tick_high (highTick_highTick _) hstart hclock.2.2.1 hclock.2.2.2))
    (fun u h hclock hI hR => by
      rcases h with rfl | h
      · exact absurd (hI.symm.trans hdata.2.2.1) Bool.false_ne_true
      have hline := h.evLine_eq_start hwaiting
      have hstart : start u = true := by simp [start, sdaFalling, hclock.2.2.1, hI, hR]
      have hrestarted := h.toShows.tick_start (highTick_highTick _) hstart hclock.2.2.1 hclock.2.2.2 true false
      rw [highTick_restarted hbyte] at hrestarted
      exact ⟨hrestarted, (eventBehind_of_follows h.event hline).tick_kept true false h.enabled hline⟩)
    (fun n u h hclock hI hR =>
      afterPulse_next h rfl rfl (.inr rfl) (start_of_same (hR.trans hI.symm)) hclock.2.2.1 hclock.2.2.2)
  exact ⟨hhigh, hlow, afterPulse_settled hafter hlong⟩

theorem startCondition_idle (hidle : BusIdle s) (hen : Enabled s) (hedge : NoEdge s) (hbyte : ByteAwaited s.cur) :
    ClockLow (startCondition s) ∧ Settled s { s.cur with state := .rcvAddress, counter := 0#4 } (startCondition s) := by
  obtain ⟨hhigh, hlow, hsettled⟩ := quarter_start_idle hidle hen hedge hbyte
  exact quarter_fall hsettled ⟨Nat.zero_le 8, fun _ => by simp, by simp⟩ rfl hhigh hlow rfl

end IdleStart

/-! ## START before a disabled engine (R151, 41_byte_engine.md R130) -/

/-- `u`, reached from `s`, is disabled in `WAIT_START` with the engine's registers as in `r`, and no event was raised. -/
structure Asleep (s : State) (r : Regs) (u : State) : Prop where
  regs : engineRegs u.cur = engineRegs r
  waiting : r.state = .waitStart
  disabled : u.cur.hpdEn = false
  alone : u.pending = []
  event : EventKept s u

section Sleep
variable {s u : State} {r : Regs} {c d : Bool}

/-- Without a rising clock edge a tick clears the counter at a START, and does nothing else. -/
theorem Asleep.tick (h : Asleep s r u) (hrise : sclRising u = false) :
    Asleep s { r with counter := if start u then 0#4 else r.counter } (busTick c d u) := by
  obtain ⟨hstate, hcounter, hdin, hread, hoffset, hdrv, hbit⟩ := engineRegs_eq_iff.mp h.regs
  obtain ⟨hpending, hcaptured, hquiet⟩ := h.event
  have hwaits : u.cur.state = .waitStart := hstate.trans h.waiting
  have hrow := currentRow_of_waitStart hwaits
  have hnext := nextState_of_disabled h.disabled
  have hedge := evEdge_of_noEdge hquiet
  refine ⟨?_, h.waiting, (busTick_hpdEn c d h.alone).trans h.disabled, by rw [busTick_pending, h.alone]; rfl, ?_, ?_, ?_⟩
  · rw [engineRegs_eq_iff, busTick_state, busTick_counter, busTick_din, busTick_isRead, busTick_offset, busTick_dataDrv,
      busTick_dataBit, hrow, hnext, hrise]
    simp [quietRow, h.waiting, *]
  · rw [busTick_evPending c d h.alone, hedge]; exact hpending
  · rw [busTick_evCaptured, hedge]; exact hcaptured
  · rw [NoEdge, busTick_evLineR, busTick_state, evLine, hwaits, hnext]

theorem Asleep.tick_still (h : Asleep s r u) (hrise : sclRising u = false) (hstart : start u = false) :
    Asleep s r (busTick c d u) := by
  simpa only [hstart, Bool.false_eq_true, if_false] using h.tick (c := c) (d := d) hrise

theorem startCondition_asleep (hidle : BusIdle s) (hoff : s.cur.hpdEn = false) (halone : s.pending = []) (hedge : NoEdge s)
    (hstate : s.cur.state = .waitStart) :
    ClockLow (startCondition s) ∧ Asleep s { s.cur with counter := 0#4 } (startCondition s) := by
  obtain ⟨hclock, hdata⟩ := hidle
  have hstill : ∀ {u : State}, ClockAt true u → sclRising u = false := fun h => sclRising_of_same (h.2.2.2.trans h.2.2.1.symm)
  obtain ⟨hhigh, hlow, -, -, hasleep⟩ := quarter_data_edge (c := true) (d := false) (v := false)
    (P := Asleep s s.cur) (R := fun _ => Asleep s { s.cur with counter := 0#4 })
    hclock hdata (fun _ _ => rfl) ⟨rfl, hstate, hoff, halone, rfl, rfl, hedge⟩
    (fun u h hclock hI hR => h.tick_still (hstill hclock) (start_of_same (hR.trans hI.symm)))
    (fun u h hclock hI hR => by
      have hstart : start u = true := by simp [start, sdaFalling, hclock.2.2.1, hI, hR]
      simpa only [hstart, if_true] using h.tick (c := true) (d := false) (hstill hclock))
    (fun _ u h hclock hI hR => h.tick_still (hstill hclock) (start_of_same (hR.trans hI.symm)))
  obtain ⟨hfallen, -, -, hasleep', -⟩ := quarter_edge (c := false) (d := false)
    (P := fun u => Asleep s { s.cur with counter := 0#4 } u ∧ DataAt false u)
    (R := fun _ u => Asleep s { s.cur with counter := 0#4 } u ∧ DataAt false u) hhigh ⟨hasleep, hlow⟩
    (fun u ⟨h, hdata⟩ hI hR => ⟨h.tick_still (sclRising_of_same (hR.trans hI.symm)) (start_of_dataAt hdata), dataAt_tick hdata rfl⟩)
    (fun u ⟨h, hdata⟩ hI _ _ => ⟨h.tick_still (sclRising_of_low hI) (start_of_dataAt hdata), dataAt_tick hdata rfl⟩)
    (fun _ u ⟨h, hdata⟩ hI _ => ⟨h.tick_still (sclRising_of_low hI) (start_of_dataAt hdata), dataAt_tick hdata rfl⟩)
  exact ⟨hfallen, hasleep'⟩

end Sleep

/-! ## Repeated START (R170, 41_byte_engine.md R140) -/

section RepeatedStart
variable {s : State}

/-- Where the engine leaves the line high: a rising edge with a 1, and from there START as on an idle bus. The event is that of the
START, which leaves `WAIT_START` if the rising edge entered it. -/
theorem repeatedStart_free (hclock : ClockLow s) (hen : Enabled s) (hedge : NoEdge s) (hframe : InFrame s.cur)
    (hfree : pulls (lowPhase s s.cur) = false) :
    let risen := highPhase true (lowPhase s s.cur)
    let t := repeatedStart s
    ClockLow t ∧ Enabled t ∧ engineRegs t.cur = engineRegs { risen with state := .rcvAddress, counter := 0#4 } ∧
      (risen.state = .waitStart → EventRaised true t) ∧ (risen.state ≠ .waitStart → EventKept s t) := by
  intro risen t
  obtain ⟨hhigh, hdata, hrisen⟩ :=
    halfPeriod_rise (d := true) (v := true) (settled_refl hen hedge) hframe hclock Iff.rfl (by simp [hfree])
  obtain ⟨hlow, hsettled⟩ := start_fall_settled hrisen.rebase (highTick_highPhase true _) hhigh hdata (by rw [hrisen.state])
  refine ⟨hlow, hsettled.enabled, hsettled.regs, fun hwaits => ?_, fun hbusy => ?_⟩
  · exact hsettled.eventRaised (by simpa [hrisen.state] using hwaits)
  · have hstarted : s.cur.state ≠ .waitStart := fun hstate => hbusy (by simp [risen, highPhase, lowPhase, hstate])
    have hkept := hrisen.eventKept (iff_of_false hstarted hbusy)
    exact eventKept_trans hkept (hsettled.eventKept (by simpa [hrisen.state] using hbusy))

/-- Where the engine holds the line low, the line cannot fall: one more clock period with a 0. -/
theorem repeatedStart_held (hclock : ClockLow s) (hen : Enabled s) (hedge : NoEdge s) (hframe : InFrame s.cur)
    (hheld : pulls (lowPhase s s.cur) = true) :
    ClockLow (repeatedStart s) ∧ Settled s (lowPhase s (highPhase false (lowPhase s s.cur))) (repeatedStart s) := by
  have hlow := inFrame_lowPhase s hframe
  obtain ⟨hhigh, hdata, hsettled⟩ :=
    halfPeriod_rise (d := true) (v := false) (settled_refl hen hedge) hframe hclock Iff.rfl (by simp [hheld])
  exact halfPeriod_fall hsettled (inFrame_highPhase false hlow (not_waitsForLow_lowPhase s _)) (highTick_highPhase false _)
    hhigh hdata rfl

end RepeatedStart

/-- Settles O51: START from an idle bus, before a disabled engine, and repeated, where the engine leaves the line high and where it
holds it low. -/
theorem startConditions : Obligations.StartConditions := by
  refine ⟨?_, ?_, ?_, ?_⟩
  · intro s hidle hen hedge hbyte
    obtain ⟨hlow, hsettled⟩ := startCondition_idle hidle hen hedge hbyte
    exact ⟨_, rfl, (carried_startCondition s).busKept hsettled.enabled, hlow, masterKept_startCondition s, hsettled.regs,
      hsettled.event⟩
  · intro s hidle hoff halone hedge hstate
    obtain ⟨hlow, hasleep⟩ := startCondition_asleep hidle hoff halone hedge hstate
    have hcarried := carried_startCondition s
    exact ⟨_, rfl, hcarried.mem, hcarried.tick, hasleep.disabled, hlow, masterKept_startCondition s, hasleep.regs,
      hasleep.event⟩
  · intro s hclock hen hedge hle hframed hfree risen
    obtain ⟨hlow, henabled, hregs, hraised, hkept⟩ :=
      repeatedStart_free hclock hen hedge (inFrame_of_framed hclock hle hframed) hfree
    exact ⟨_, rfl, (carried_repeatedStart s).busKept henabled, hlow, masterKept_repeatedStart s, hregs, hraised, hkept⟩
  · intro s hclock hen hedge hle hframed hheld
    obtain ⟨hlow, hsettled⟩ := repeatedStart_held hclock hen hedge (inFrame_of_framed hclock hle hframed) hheld
    exact ⟨_, rfl, (carried_repeatedStart s).busKept hsettled.enabled, hlow, masterKept_repeatedStart s, hsettled.regs,
      hsettled.event⟩

end Sys2Proof.Proofs
end

section
/-! PROOFS. Proofs/HpdEvent.lean: the statements of 43_hpd_event_csr.md: the hot-plug block and the enable bit, the event's line,
flag and latch, the registers software reads, and which transitions of the protocol machine raise the event. -/

namespace Sys2Proof.Proofs

open Sys2Proof.Machine Sys2Proof.Safety

/-! ## What software reads (10_state.md R52) -/

theorem softwareWord_eq (b : Bool) : softwareWord b = if b = true then 0x01#8 else 0x00#8 := by
  cases b <;> rfl

/-- A register access by software: the output's wire, and its value at position 0 of the result. -/
theorem next_read (s : State) (g : State → Wires → Wires) (b : Bool) :
    (.next (readRegister (s.drive g) b) : Result) =
      .next { s with wires := g s s.wires, swResult := if b = true then 0x01#8 else 0x00#8 } := by
  rw [readRegister, State.drive, softwareWord_eq]

/-! ## The hot-plug block and the enable bit (R190 to R195) -/

section HotPlug
variable {s : State}

theorem stageHpdSync_of_pin (n : Regs) (h : s.params.hasHpdPin = true) :
    stageHpdSync s n = { n with hpdS1 := s.now.hpdPin, hpdS2 := s.cur.hpdS1 } := by
  simp only [stageHpdSync, h, if_true]

theorem stageHpdSync_of_noPin (n : Regs) (h : s.params.hasHpdPin = false) : stageHpdSync s n = n := by
  simp only [stageHpdSync, h, Bool.false_eq_true, if_false]

theorem stageHpdSync_eq (s : State) (n : Regs) : stageHpdSync s n =
    if s.params.hasHpdPin = true then { n with hpdS1 := s.now.hpdPin, hpdS2 := s.cur.hpdS1 } else n := by
  split_ifs with hpin
  · exact stageHpdSync_of_pin n hpin
  · exact stageHpdSync_of_noPin n (Bool.eq_false_iff.mpr hpin)

theorem hpdNotif_of_pin (h : s.params.hasHpdPin = true) : hpdNotif s = s.cur.hpdS2 := if_pos h

theorem hpdNotif_of_noPin (h : s.params.hasHpdPin = false) : hpdNotif s = true := by
  simp only [hpdNotif, h, Bool.false_eq_true, if_false]

/-- The filter's two registers delay the pin by two ticks. -/
theorem hpdNotif_tick_tick (h : s.params.hasHpdPin = true) : hpdNotif (tick (tick s)) = s.now.hpdPin := by
  have hpin : (tick (tick s)).params.hasHpdPin = true := h
  rw [hpdNotif_of_pin hpin, tick_hpdS2, tick_params, if_pos h, tick_hpdS1, if_pos h]

end HotPlug

/-- Settles O31: without the pin the filter stages nothing; with it, it stages what the status shows two ticks on. -/
theorem hotPlugStatus : Obligations.HotPlugStatus := fun s =>
  ⟨next_stage_drive driveHpdNotif (stageHpdSync_eq s s.nxt), next_read s driveHpdNotif (hpdNotif s),
    fun h => (congrArg Wires.hpdNotif (tick_wires _)).trans (hpdNotif_tick_tick h),
    fun h => (congrArg Wires.hpdNotif (tick_wires s)).trans (hpdNotif_of_noPin h)⟩

theorem tick_hpdEn_of_write {s : State} (h : s.now.hpdEnWe = true) : (tick s).cur.hpdEn = s.now.hpdEnWdata := by
  rw [tick_hpdEn, if_pos h]

theorem tick_hpdEn_of_noWrite {s : State} (h : s.now.hpdEnWe = false) : (tick s).cur.hpdEn = s.cur.hpdEn := by
  rw [tick_hpdEn, h, if_neg Bool.false_ne_true]

/-- Settles O32: the write stands at the inputs of its tick, which commits it and shows the register as it was. -/
theorem enableBitAccess : Obligations.EnableBitAccess := fun s _ =>
  ⟨rfl, tick_hpdEn_of_write rfl, congrArg Wires.hpdEnQ (tick_wires _), tick_hpdEn_of_noWrite,
    next_read s driveHpdEnQ s.cur.hpdEn, rfl⟩

/-! ## The event's line, edge, flag and latch (R198 to R202, R208) -/

theorem evLine_eq_decide (s : State) : evLine s = decide (s.cur.state ≠ .waitStart) := by
  rw [Bool.eq_iff_iff, decide_eq_true_iff, evLine, bne_iff_ne]

/-- Settles O33: each operation has its own wire or register, and the tick the same values. -/
theorem eventLineAndEdge : Obligations.EventLineAndEdge := by
  intro s line
  have hline : line = evLine s := (evLine_eq_decide s).symm
  rw [hline]
  exact ⟨rfl, rfl, rfl, congrArg Wires.evLine (tick_wires s), congrArg Wires.evEdge (tick_wires s), tick_evLineR s⟩

section Event
variable {s : State}

/-- A tick with an edge sets the flag, whatever the clear does, and captures the line. -/
theorem tick_event_of_edge (h : evEdge s = true) :
    (tick s).cur.evPending = true ∧ (tick s).cur.evCaptured = evLine s := by
  rw [tick_evPending, tick_evCaptured, if_pos h, if_pos h]
  exact ⟨rfl, rfl⟩

/-- A tick without an edge leaves the latch, and the flag but for a clear. -/
theorem tick_event_of_noEdge (h : evEdge s = false) : (tick s).cur.evCaptured = s.cur.evCaptured ∧
    (s.now.evClear = false → (tick s).cur.evPending = s.cur.evPending) := by
  rw [tick_evPending, tick_evCaptured, h, if_neg Bool.false_ne_true, if_neg Bool.false_ne_true]
  exact ⟨rfl, fun hclear => by rw [hclear, if_neg Bool.false_ne_true]⟩

/-- In a tick with a clear the flag becomes the edge: the set wins. -/
theorem stageEvPending_of_clear (n : Regs) (h : s.now.evClear = true) :
    stageEvPending s n = { n with evPending := evEdge s } := by
  cases hedge : evEdge s <;> simp [stageEvPending, hedge, h]

theorem tick_evPending_of_clear (h : s.now.evClear = true) : (tick s).cur.evPending = evEdge s := by
  rw [tick_evPending, h]
  cases evEdge s <;> rfl

end Event

theorem exec_csrClrEv (s : State) : exec .csrClrEv s = .next { s with
    pending := { s.now with evClear := true } :: s.pending.tail
    nxt := { s.nxt with evPending := evEdge s } } :=
  next_stage (s := s.withNow { s.now with evClear := true }) (stageEvPending_of_clear s.nxt rfl)

/-- Settles O34: the set before the clear, which stands at the inputs of its tick. -/
theorem eventFlagAndLatch : Obligations.EventFlagAndLatch := by
  intro s line edge
  have hline : line = evLine s := (evLine_eq_decide s).symm
  have hedge : edge = evEdge s := congrArg (· != s.cur.evLineR) hline
  rw [hedge, hline]
  refine ⟨rfl, rfl, exec_csrClrEv s, fun t hexec => ?_, tick_evPending s, tick_evCaptured s⟩
  obtain rfl := Host.Outcome.next.inj ((exec_csrClrEv s).symm.trans hexec)
  exact tick_evPending_of_clear rfl

/-! ## The outputs and the debug taps (R203 to R207, R209) -/

theorem exec_dbgTaps (s : State) : exec .dbgTaps s = .next { s with
    wires := { s.wires with dbgScl := s.cur.sclS2, dbgSda := s.cur.sdaS2, dbgSdaOe := pulls s.cur } } := by
  rw [pulls_eq_sdaOe]
  rfl

/-- Settles O35: three reads, each of a wire of its own, and the wires of the request and of the taps. -/
theorem eventOutputs : Obligations.EventOutputs := by
  intro s line
  have hline : line = evLine s := (evLine_eq_decide s).symm
  rw [hline]
  exact ⟨next_read s driveEvLine (evLine s), next_read s driveEvPendingQ s.cur.evPending,
    next_read s driveEvCapturedQ s.cur.evCaptured, rfl, exec_dbgTaps s, congrArg Wires.irq (tick_wires s),
    congrArg Wires.dbgScl (tick_wires s), congrArg Wires.dbgSda (tick_wires s)⟩

/-! ## Which transitions raise the event (R210) -/

/-- The line tells two states apart only where one of them is `WAIT_START`. -/
theorem evLine_eq_iff {s t : State} :
    evLine t = evLine s ↔ (s.cur.state = .waitStart ↔ t.cur.state = .waitStart) := by
  rw [evLine_eq_decide, evLine_eq_decide, decide_eq_decide, not_iff_not]
  exact iff_comm

/-- The edge is seen in the tick after the transition: the previous-tick register holds the line before it. -/
theorem evEdge_tick (s : State) : evEdge (tick s) = (evLine (tick s) != evLine s) := by
  rw [evEdge, tick_evLineR]

section Transition
variable {s : State}

theorem evEdge_tick_of_same (h : s.cur.state = .waitStart ↔ (tick s).cur.state = .waitStart) : evEdge (tick s) = false := by
  rw [evEdge_tick, evLine_eq_iff.mpr h, bne_self_eq_false]

theorem evEdge_tick_of_moved (h : ¬(s.cur.state = .waitStart ↔ (tick s).cur.state = .waitStart)) :
    evEdge (tick s) = true := by
  rw [evEdge_tick, bne_iff_ne, ne_eq, evLine_eq_iff]
  exact h

end Transition

/-- Settles O36: the first tick has no edge; the second has one exactly if the first entered or left `WAIT_START`. -/
theorem eventFollowsState : Obligations.EventFollowsState := by
  intro s hquiet
  obtain ⟨hcaptured, hpending⟩ := tick_event_of_noEdge (evEdge_of_noEdge hquiet)
  refine ⟨fun hsame => ?_, fun hmoved => ?_⟩
  · obtain ⟨hcaptured', hpending'⟩ := tick_event_of_noEdge (evEdge_tick_of_same hsame)
    exact ⟨hcaptured'.trans hcaptured, fun hclear hclear' => (hpending' hclear').trans (hpending hclear)⟩
  · obtain ⟨hset, hline⟩ := tick_event_of_edge (evEdge_tick_of_moved hmoved)
    exact ⟨hset, hline.trans (evLine_eq_decide (tick s))⟩

end Sys2Proof.Proofs
end

section
/-! PROOFS. Proofs/CrcChecker.lean: the statements of 44_crc_checker.md about one tick: the handshake, the elastic buffer, the
engine's registers, the three rows of the control machine, and back-pressure. -/

namespace Sys2Proof.Proofs

open Sys2Proof.Machine Sys2Proof.Safety

/-! ## The handshake (R220 to R224) -/

theorem fifoFull_eq_decide (s : State) : fifoFull s = decide (s.cur.buf.length = 32 / s.params.dw.bits) := by
  rw [Bool.eq_iff_iff, decide_eq_true_iff]
  exact beq_iff_eq

theorem fifoOut_eq (s : State) : fifoOut s = (s.now.sinkStb && fifoFull s && s.now.sourceAck) := rfl

theorem fifoIn_eq_out (s : State) : fifoIn s = (s.now.sinkStb && (!fifoFull s || fifoOut s)) := rfl

/-- A unit is accepted wherever the buffer has room or the consumer takes its head: the offer stands on both sides (R223). -/
theorem fifoIn_eq (s : State) : fifoIn s = (s.now.sinkStb && (!fifoFull s || s.now.sourceAck)) := by
  rw [fifoIn_eq_out, fifoOut_eq]
  cases s.now.sinkStb <;> cases fifoFull s <;> rfl

/-- Settles O37: each operation drives its own wire, and the tick the same values. -/
theorem handshakeWires : Obligations.HandshakeWires := by
  intro s
  simp only [← fifoFull_eq_decide]
  exact ⟨rfl, rfl, rfl, rfl, rfl, congrArg Wires.fifoFull (tick_wires s), congrArg Wires.sourceStb (tick_wires s),
    congrArg Wires.fifoOut (tick_wires s), congrArg Wires.fifoIn (tick_wires s), congrArg Wires.sinkAck (tick_wires s)⟩

/-! ## The elastic buffer (R225 to R228) -/

theorem exec_crcSrcPayload (s : State) : exec .crcSrcPayload s =
    .next { s with wires := { s.wires with sourceData := sourceData s, sourceSop := sourceSop s } } := rfl

theorem source_of_head {s : State} {e : Entry} {rest : List Entry} (h : s.cur.buf = e :: rest) :
    sourceData s = e.data ∧ sourceSop s = e.sop := by
  simp only [sourceData, sourceSop, h, and_self]

/-- Settles O38: the head's fields where there is a head; any values otherwise. -/
theorem payloadAndMarks : Obligations.PayloadAndMarks := by
  intro s
  refine ⟨fun e rest hbuf => ?_, fun _ => ⟨sourceData s, sourceSop s, exec_crcSrcPayload s⟩, rfl⟩
  obtain ⟨hdata, hsop⟩ := source_of_head hbuf
  rw [exec_crcSrcPayload, hdata, hsop]

theorem poppedPushed_eq (s : State) : poppedPushed s =
    (if fifoOut s = true then s.cur.buf.drop 1 else s.cur.buf) ++
      (if fifoIn s = true then [{ data := unitOf s.params.dw s.now.sinkData, sop := s.now.sinkSop }] else []) := by
  rw [poppedPushed, popped, List.drop_one]
  split
  · rfl
  · exact (List.append_nil _).symm

theorem bufNext_eq (s : State) : bufNext s = if s.cur.cstate = .reset then [] else poppedPushed s := by
  simp only [bufNext, currentCrcRow_fifoReset, beq_iff_eq]

/-- Settles O39: the clear before the pop and the push. -/
theorem bufferUpdate : Obligations.BufferUpdate := by
  intro s
  simp only [← fifoFull_eq_decide, ← fifoOut_eq, ← fifoIn_eq_out, ← poppedPushed_eq, ← bufNext_eq]
  exact ⟨rfl, tick_buf s⟩

/-! ## The engine's registers (R232 to R234) -/

/-- The accumulator is enabled by an accepted unit that starts a frame or belongs to one (R239, R240). -/
theorem crcCe_eq (s : State) : (currentCrcRow s).crcCe =
    (fifoIn s && ((s.cur.cstate == .idle && s.now.sinkSop) || s.cur.cstate == .copy)) := by
  rw [currentCrcRow_crcCe]
  cases fifoIn s <;> simp

theorem crcAccNext_eq (s : State) (old : Acc) :
    (if (currentCrcRow s).crcReset then crcInit s else if (currentCrcRow s).crcCe then crcNext s else old) =
      if s.cur.cstate = .reset then crcInit s
      else if (fifoIn s && ((s.cur.cstate == .idle && s.now.sinkSop) || s.cur.cstate == .copy)) = true then crcNext s
      else old := by
  simp only [currentCrcRow_crcReset, crcCe_eq, beq_iff_eq]

/-- Settles O40: the engine's wires by their formulas, and the accumulator under the row's strobes. -/
theorem crcEngineOperations : Obligations.CrcEngineOperations := by
  intro s
  simp only [← fifoFull_eq_decide, ← fifoIn_eq]
  exact ⟨rfl, next_stage (congrArg (fun crcAcc => { s.nxt with crcAcc }) (crcAccNext_eq s s.nxt.crcAcc)), rfl,
    (tick_crcAcc s).trans (crcAccNext_eq s s.cur.crcAcc), congrArg Wires.sourceError (tick_wires s)⟩

/-! ## The rows of the control machine (R237 to R240) -/

/-- A row outside RESET: it clears nothing. -/
def runningRow (next : CrcState) (crcCe : Bool) : CrcRow where
  next := next
  crcReset := false
  fifoReset := false
  crcCe := crcCe

section Rows
variable {s : State}

theorem currentCrcRow_of_reset (h : s.cur.cstate = .reset) : currentCrcRow s = rowReset := by
  simp only [currentCrcRow, h]

theorem currentCrcRow_of_begin (h : s.cur.cstate = .idle) (hin : fifoIn s = true) (hsop : s.now.sinkSop = true) :
    currentCrcRow s = runningRow .copy true := by
  simp [currentCrcRow, h, rowIdle, sinkAck, hin, hsop, sinkStb_of_fifoIn hin, runningRow]

theorem currentCrcRow_of_noBegin (h : s.cur.cstate = .idle) (hnot : ¬(fifoIn s = true ∧ s.now.sinkSop = true)) :
    currentCrcRow s = runningRow .idle false := by
  have hbegins : (s.now.sinkStb && s.now.sinkSop && sinkAck s) = false := by
    rw [Bool.eq_false_iff, sinkAck, ne_eq, Bool.and_eq_true, Bool.and_eq_true]
    exact fun hall => hnot ⟨hall.2, hall.1.2⟩
  simp [currentCrcRow, h, rowIdle, hbegins, runningRow]

theorem currentCrcRow_of_taken (h : s.cur.cstate = .copy) (hin : fifoIn s = true) :
    currentCrcRow s = runningRow (if s.now.sinkEop = true then .reset else .copy) true := by
  simp [currentCrcRow, h, rowCopy, sinkAck, hin, sinkStb_of_fifoIn hin, runningRow]

theorem currentCrcRow_of_stalled (h : s.cur.cstate = .copy) (hin : fifoIn s = false) :
    currentCrcRow s = runningRow .copy false := by
  simp [currentCrcRow, h, rowCopy, sinkAck, hin, runningRow]

end Rows

/-- The primed registers with what a row of the checker commands. -/
def commandedCrc (row : CrcRow) (s : State) (n : Regs) : Regs :=
  { n with
    cstate := row.next
    crcAcc := if row.crcReset then crcInit s else if row.crcCe then crcNext s else n.crcAcc
    buf := if row.fifoReset then [] else poppedPushed s }

theorem commandedCrc_currentCrcRow (s : State) (n : Regs) : commandedCrc (currentCrcRow s) s n = stageCrcRow s n :=
  (stageCrcRow_eq s n).symm

/-- A row performed in its state: what it commands, its strobes, and its successor at the commit. -/
theorem crcRow_performed {k : CrcState} {s : State} {row : CrcRow} (hstate : s.cur.cstate = k) (hrow : currentCrcRow s = row)
    (hreset : row.fifoReset = row.crcReset) :
    (.next (performCrcRow k s) : Result) = .next (afterCrcRow s (commandedCrc row s s.nxt) row.crcReset row.crcCe) ∧
      (tick s).cur.cstate = row.next := by
  have hstage : stageCrcRow s s.nxt = commandedCrc row s s.nxt := by rw [← hrow, commandedCrc_currentCrcRow]
  have hdrive : driveCrcRow s s.wires = (afterCrcRow s (commandedCrc row s s.nxt) row.crcReset row.crcCe).wires := by
    rw [driveCrcRow, hrow, hreset]
    rfl
  have hperform : performCrcRow k s = inTick s (stageCrcRow s s.nxt) (driveCrcRow s s.wires) :=
    performCrcRow_inTick_selected s.nxt s.wires hstate
  refine ⟨?_, hrow ▸ tick_cstate s⟩
  rw [hperform, hstage, hdrive]
  rfl

theorem busy_eq_decide (s : State) : busy s = decide (s.cur.cstate ≠ .idle) := by
  rw [Bool.eq_iff_iff, decide_eq_true_iff, busy, bne_iff_ne]

/-- Settles O42: one row for each state, handshake and mark, performed in its state. -/
theorem checkerRows : Obligations.CheckerRows := by
  intro s
  simp only [← fifoFull_eq_decide, ← fifoOut_eq, ← fifoIn_eq, ← poppedPushed_eq, ← busy_eq_decide]
  refine ⟨fun h => crcRow_performed h (currentCrcRow_of_reset h) rfl, fun h hin hsop => ?_, fun h hnot => ?_,
    fun h hin => ?_, fun h hin => ?_, rfl, congrArg Wires.busy (tick_wires s)⟩
  · exact crcRow_performed h (currentCrcRow_of_begin h hin hsop) rfl
  · exact crcRow_performed h (currentCrcRow_of_noBegin h hnot) rfl
  · exact crcRow_performed h (currentCrcRow_of_taken h hin) rfl
  · exact crcRow_performed h (currentCrcRow_of_stalled h hin) rfl

/-! ## Back-pressure (R231) -/

section Stalled
variable {s : State}

theorem fifoOut_of_not_fifoIn (h : fifoIn s = false) : fifoOut s = false :=
  Bool.eq_false_iff.mpr fun hout => Bool.eq_false_iff.mp h (fifoIn_of_fifoOut hout).1

/-- Where no unit is accepted the checker keeps its state, accumulator and buffer. -/
theorem tick_of_stalled (hrun : s.cur.cstate ≠ .reset) (hin : fifoIn s = false) :
    (tick s).cur.buf = s.cur.buf ∧ (tick s).cur.crcAcc = s.cur.crcAcc ∧ (tick s).cur.cstate = s.cur.cstate := by
  have hrow : currentCrcRow s = runningRow s.cur.cstate false := by
    cases h : s.cur.cstate with
    | reset => exact absurd h hrun
    | idle => exact currentCrcRow_of_noBegin h fun hbegin => Bool.eq_false_iff.mp hin hbegin.1
    | copy => exact currentCrcRow_of_stalled h hin
  refine ⟨?_, ?_, ?_⟩
  · rw [tick_buf, bufNext_eq, if_neg hrun, poppedPushed_eq, hin, fifoOut_of_not_fifoIn hin]
    exact List.append_nil _
  · rw [tick_crcAcc, hrow]; rfl
  · rw [tick_cstate, hrow]; rfl

end Stalled

/-- Settles O43: a full buffer accepts nothing without a consumer, and where nothing is accepted nothing moves. -/
theorem backPressureHolds : Obligations.BackPressureHolds := by
  intro s hlevel hack hrun
  have hfull : fifoFull s = true := (fifoFull_eq_decide s).trans (decide_eq_true hlevel)
  have hin : fifoIn s = false := by rw [fifoIn_eq, hfull, hack]; exact Bool.and_false _
  have hstb : sourceStb s = s.now.sinkStb := by rw [sourceStb, hfull, Bool.and_true]
  exact ⟨(congrArg Wires.sourceStb (tick_wires s)).trans hstb,
    (congrArg Wires.fifoOut (tick_wires s)).trans (fifoOut_of_not_fifoIn hin),
    (congrArg Wires.fifoIn (tick_wires s)).trans hin, (congrArg Wires.sinkAck (tick_wires s)).trans hin,
    tick_of_stalled hrun hin⟩

end Sys2Proof.Proofs
end

section
/-! PROOFS. Proofs/CrcEngine.lean: the statements of 44_crc_checker.md R235 and R236: what the engine's parameters are, and that
the reference engine meets the contract, with the complement of a payload's fold as its check sequence. -/

namespace Sys2Proof.Proofs

open Sys2Proof.Machine Sys2Proof.Safety

/-! ## The parameters of a configuration -/

/-- `crc_update` of the reference engine for units of one width. -/
def refUnit (w : DataWidth) (acc : Acc) (u : DataUnit) : Acc := refUpdate acc u w.bits

section Reference
variable {s : State}

theorem crcInit_of_reference (h : s.params.engine = .reference) : crcInit s = 0xFFFFFFFF#32 := by
  simp only [crcInit, h]

theorem crcUpdate_of_reference (h : s.params.engine = .reference) : crcUpdate s = refUnit s.params.dw := by
  funext acc u
  simp only [crcUpdate, h, refUnit]

theorem crcError_of_reference (h : s.params.engine = .reference) (acc : Acc) :
    crcError s acc = decide (acc ≠ 0xDEBB20E3#32) := by
  rw [Bool.eq_iff_iff, decide_eq_true_iff]
  simp only [crcError, h, bne_iff_ne]

end Reference

/-- An external engine shows nothing of itself: its parameters have no body (R9). -/
theorem parameters_of_external {s : State} (h : s.params.engine = .external) :
    crcInit s = Config.crcInit ∧ crcUpdate s = Config.crcUpdate s.params.dw ∧ crcError s = Config.crcError := by
  refine ⟨?_, ?_, ?_⟩
  · simp only [crcInit, h]
  · funext acc u; simp only [crcUpdate, h]
  · funext acc; simp only [crcError, h]

/-- The recursion of the model is the loop over the bits, bit 0 first. -/
theorem refUpdate_eq_foldl (acc : Acc) (d : DataUnit) (n : Nat) :
    refUpdate acc d n = (List.range n).foldl (fun a i => refBit a (d.getLsbD i)) acc := by
  induction n with
  | zero => rfl
  | succ n ih => rw [refUpdate, ih, List.range_succ, List.foldl_append, List.foldl_cons, List.foldl_nil]

/-- Settles O41: one case per engine; the reference engine's update is the loop of its bits. -/
theorem engineParameters : Obligations.EngineParameters := fun s =>
  ⟨parameters_of_external, fun h => ⟨crcInit_of_reference h, fun acc u =>
    (congrFun₂ (crcUpdate_of_reference h) acc u).trans (refUpdate_eq_foldl acc u s.params.dw.bits),
    crcError_of_reference h⟩⟩

/-! ## The bits of a unit (44_crc_checker.md R216) -/

theorem bits_le (w : DataWidth) : w.bits ≤ 32 := by cases w <;> decide

theorem bits_mul_ratio (w : DataWidth) : w.bits * w.ratio = 32 := by cases w <;> rfl

/-- A unit keeps the low bits of its width. -/
theorem getLsbD_unitOf (w : DataWidth) (d : DataUnit) (i : Nat) :
    (unitOf w d).getLsbD i = (decide (i < w.bits) && d.getLsbD i) := by
  have hwidth := bits_le w
  simp only [unitOf, BitVec.getLsbD_setWidth]
  by_cases hi : i < w.bits
  · simp [hi, hi.trans_le hwidth]
  · simp [hi]

theorem unitOf_xor (w : DataWidth) (d e : DataUnit) : unitOf w (d ^^^ e) = unitOf w d ^^^ unitOf w e := by
  simp only [unitOf, BitVec.setWidth_xor]

theorem unitOf_twoPow {w : DataWidth} {bit : Nat} (h : bit < w.bits) :
    unitOf w (BitVec.twoPow 32 bit) = BitVec.twoPow 32 bit := by
  apply BitVec.eq_of_getLsbD_eq
  intro i _
  rw [getLsbD_unitOf, BitVec.getLsbD_twoPow]
  by_cases hi : bit = i
  · subst hi
    simp [h]
  · simp [hi]

/-! ## The reference engine, bit by bit

The engine shifts its accumulator right and adds the polynomial under the bit shifted out. The polynomial's own bit 31 makes each
shift reversible, and the engine is linear: a unit may as well be added to the accumulator first, and zeros shifted in. -/

/-- The bit shifted out of the accumulator, with the bit fed in, stands at bit 31 after the shift. -/
theorem refBit_getLsbD_top (acc : Acc) (b : Bool) : (refBit acc b).getLsbD 31 = (acc.getLsbD 0 != b) := by
  unfold refBit
  cases acc.getLsbD 0 != b <;> simp

/-- The step on an accumulator whose bit 0 is given by the word is the step on the sum of the two. -/
theorem refBit_xor (acc d : Acc) : refBit (acc ^^^ d) (d.getLsbD 0) = refBit acc false ^^^ (d >>> 1) := by
  have hout : ((acc ^^^ d).getLsbD 0 != d.getLsbD 0) = (acc.getLsbD 0 != false) := by
    rw [BitVec.getLsbD_xor]
    cases acc.getLsbD 0 <;> cases d.getLsbD 0 <;> rfl
  have hshift : (acc ^^^ d) >>> 1 = acc >>> 1 ^^^ d >>> 1 := BitVec.ushiftRight_xor_distrib ..
  simp only [refBit, hout, hshift]
  split
  · rw [BitVec.xor_assoc, BitVec.xor_comm (d >>> 1), BitVec.xor_assoc]
  · rfl

theorem refBit_injective (b : Bool) : Function.Injective (refBit · b) := by
  intro x y h
  have hout : (x.getLsbD 0 != b) = (y.getLsbD 0 != b) := by
    rw [← refBit_getLsbD_top, ← refBit_getLsbD_top]
    exact congrArg (BitVec.getLsbD · 31) h
  have hlow : x.getLsbD 0 = y.getLsbD 0 := by simpa using hout
  have hshift : x >>> 1 = y >>> 1 := by
    simp only [refBit, hout] at h
    split at h
    · exact (BitVec.xor_left_inj _).mp h
    · exact h
  apply BitVec.eq_of_getLsbD_eq
  intro i _
  cases i with
  | zero => exact hlow
  | succ i => simpa [Nat.add_comm] using congrArg (BitVec.getLsbD · i) hshift

theorem refUpdate_injective (d : DataUnit) (n : Nat) : Function.Injective (refUpdate · d n) := by
  induction n with
  | zero => exact fun _ _ h => h
  | succ n ih => exact (refBit_injective _).comp ih

/-- Only the bits fed in count. -/
theorem refUpdate_congr {d e : DataUnit} {n : Nat} (acc : Acc) (h : ∀ i, i < n → d.getLsbD i = e.getLsbD i) :
    refUpdate acc d n = refUpdate acc e n := by
  induction n with
  | zero => rfl
  | succ n ih => rw [refUpdate, refUpdate, ih fun i hi => h i (by omega), h n n.lt_succ_self]

theorem refUpdate_unitOf (acc : Acc) (w : DataWidth) (d : DataUnit) :
    refUpdate acc (unitOf w d) w.bits = refUpdate acc d w.bits :=
  refUpdate_congr acc fun i hi => by rw [getLsbD_unitOf, decide_eq_true hi, Bool.true_and]

/-- The bits of a word may be fed in two parts. -/
theorem refUpdate_add (acc : Acc) (d : DataUnit) (m n : Nat) :
    refUpdate acc d (m + n) = refUpdate (refUpdate acc d m) (d >>> m) n := by
  induction n with
  | zero => rfl
  | succ n ih => rw [← Nat.add_assoc, refUpdate, refUpdate, ih, BitVec.getLsbD_ushiftRight]

/-- Feeding a word is adding it to the accumulator and shifting zeros in; what is not yet fed stands in the sum. -/
theorem refUpdate_linear (acc : Acc) (d : DataUnit) (n : Nat) :
    refUpdate acc d n = refUpdate (acc ^^^ d) 0#32 n ^^^ (d >>> n) := by
  induction n with
  | zero => simp [refUpdate]
  | succ n ih =>
    have hbit : d.getLsbD n = (d >>> n).getLsbD 0 := by rw [BitVec.getLsbD_ushiftRight, Nat.add_zero]
    rw [refUpdate, ih, hbit, refBit_xor, BitVec.shiftRight_add, refUpdate, BitVec.getLsbD_zero]

/-- Over a whole word the accumulator reaches the residue exactly where the word is its complement. -/
theorem refUpdate_word_eq_residue_iff (acc : Acc) (d : DataUnit) :
    refUpdate acc d 32 = 0xDEBB20E3#32 ↔ d = ~~~acc := by
  have hresidue : refUpdate (BitVec.allOnes 32) 0#32 32 = 0xDEBB20E3#32 := by simp [refUpdate, refBit]
  have hlinear : refUpdate acc d 32 = refUpdate (acc ^^^ d) 0#32 32 := by
    rw [refUpdate_linear, BitVec.ushiftRight_eq_zero (Nat.le_refl 32), BitVec.xor_zero]
  rw [hlinear, ← hresidue, (refUpdate_injective 0#32 32).eq_iff]
  constructor
  · intro h
    rw [← BitVec.xor_allOnes, ← h, ← BitVec.xor_assoc, BitVec.xor_self, BitVec.zero_xor]
  · rintro rfl
    rw [← BitVec.xor_allOnes, ← BitVec.xor_assoc, BitVec.xor_self, BitVec.zero_xor]

/-- One bit changed in what is fed in changes the accumulator. -/
theorem refUpdate_changed_ne {n bit : Nat} (acc : Acc) (d : DataUnit) (hn : n ≤ 32) (hbit : bit < n) :
    refUpdate acc (d ^^^ BitVec.twoPow 32 bit) n ≠ refUpdate acc d n := by
  intro h
  have hgone : BitVec.twoPow 32 bit >>> n = 0#32 := by
    apply BitVec.eq_of_getLsbD_eq
    intro i _
    rw [BitVec.getLsbD_ushiftRight, BitVec.getLsbD_twoPow, BitVec.getLsbD_zero]
    simp
    omega
  have hshift : (d ^^^ BitVec.twoPow 32 bit) >>> n = d >>> n := by
    rw [BitVec.ushiftRight_xor_distrib, hgone, BitVec.xor_zero]
  rw [refUpdate_linear, refUpdate_linear acc d, hshift, BitVec.xor_left_inj] at h
  have hsame := refUpdate_injective 0#32 n h
  rw [BitVec.xor_right_inj] at hsame
  have hflip := congrArg (BitVec.getLsbD · bit) hsame
  simp [hbit.trans_le hn] at hflip

/-! ## The units of a word (44_crc_checker.md R236) -/

/-- The first `n` units of a word, least significant first. -/
def unitsOf (w : DataWidth) (d : DataUnit) (n : Nat) : List DataUnit :=
  (List.range n).map fun k => unitOf w (d >>> (w.bits * k))

/-- The word whose units, least significant first, are the given ones. -/
def wordOf (w : DataWidth) (us : List DataUnit) : DataUnit :=
  BitVec.ofFnLE fun i : Fin 32 => (us.getD (i / w.bits) 0#32).getLsbD (i % w.bits)

theorem referenceCheck_eq_unitsOf (w : DataWidth) (acc : Acc) : referenceCheck w acc = unitsOf w (~~~acc) w.ratio := rfl

theorem length_unitsOf (w : DataWidth) (d : DataUnit) (n : Nat) : (unitsOf w d n).length = n := by
  rw [unitsOf, List.length_map, List.length_range]

theorem unitsOf_narrow (w : DataWidth) (d : DataUnit) (n : Nat) : ∀ u ∈ unitsOf w d n, unitOf w u = u := by
  intro u hu
  obtain ⟨k, -, rfl⟩ := List.mem_map.mp hu
  exact unitOf_unitOf w _

/-- Every sequence of `RATIO` units is the units of a word. -/
theorem unitsOf_wordOf {w : DataWidth} {us : List DataUnit} (hlen : us.length = w.ratio)
    (hnarrow : ∀ u ∈ us, unitOf w u = u) : unitsOf w (wordOf w us) w.ratio = us := by
  apply List.ext_getElem ((length_unitsOf w _ _).trans hlen.symm)
  intro k _ hk
  rw [← hnarrow us[k] (List.getElem_mem hk)]
  simp only [unitsOf, List.getElem_map, List.getElem_range]
  apply BitVec.eq_of_getLsbD_eq
  intro i _
  rw [getLsbD_unitOf, getLsbD_unitOf]
  by_cases hi : i < w.bits
  · have hword : w.bits * k + i < 32 := by
      calc w.bits * k + i
        _ < w.bits * (k + 1) := by rw [Nat.mul_succ]; omega
        _ ≤ w.bits * w.ratio := Nat.mul_le_mul_left _ (hlen ▸ hk)
        _ = 32 := bits_mul_ratio w
    have hunit : (w.bits * k + i) / w.bits = k := by
      rw [Nat.mul_add_div (by omega), Nat.div_eq_of_lt hi, Nat.add_zero]
    have hbit : (w.bits * k + i) % w.bits = i := by
      rw [Nat.mul_add_mod, Nat.mod_eq_of_lt hi]
    rw [BitVec.getLsbD_ushiftRight, wordOf, BitVec.getLsbD_ofFnLE, dif_pos hword]
    simp only [hunit, hbit, List.getD_eq_getElem us 0#32 hk]
  · simp only [hi, decide_false, Bool.false_and]

/-- The first units of a word, folded, are its low bits fed in. -/
theorem foldl_refUnit_unitsOf (w : DataWidth) (acc : Acc) (d : DataUnit) (n : Nat) :
    (unitsOf w d n).foldl (refUnit w) acc = refUpdate acc d (w.bits * n) := by
  induction n with
  | zero => rfl
  | succ n ih =>
    rw [unitsOf, List.range_succ, List.map_append, List.foldl_append, ← unitsOf, ih, Nat.mul_succ, refUpdate_add]
    exact refUpdate_unitOf _ w _

/-! ## The contract -/

theorem foldl_referenceCheck (w : DataWidth) (acc : Acc) : (referenceCheck w acc).foldl (refUnit w) acc = 0xDEBB20E3#32 := by
  rw [referenceCheck_eq_unitsOf, foldl_refUnit_unitsOf, bits_mul_ratio, refUpdate_word_eq_residue_iff]

/-- No other units than those of the complement take the accumulator to the residue. -/
theorem eq_referenceCheck_of_foldl {w : DataWidth} {acc : Acc} {g : List DataUnit} (hlen : g.length = w.ratio)
    (hnarrow : ∀ u ∈ g, unitOf w u = u) (hres : g.foldl (refUnit w) acc = 0xDEBB20E3#32) : g = referenceCheck w acc := by
  have hword := unitsOf_wordOf hlen hnarrow
  rw [← hword, foldl_refUnit_unitsOf, bits_mul_ratio, refUpdate_word_eq_residue_iff] at hres
  rw [referenceCheck_eq_unitsOf, ← hres, hword]

theorem foldl_refUnit_injective (w : DataWidth) (us : List DataUnit) : Function.Injective (us.foldl (refUnit w)) := by
  induction us with
  | nil => exact fun _ _ h => h
  | cons u us ih => exact ih.comp (refUpdate_injective u w.bits)

/-- A changed bit changes the accumulator at its unit, and the units after it keep the two accumulators apart. -/
theorem foldl_refUnit_changed_ne {w : DataWidth} {bit : Nat} (hbit : bit < w.bits) (init : Acc)
    (before rest : List DataUnit) (u : DataUnit) :
    (before ++ (u ^^^ BitVec.twoPow 32 bit) :: rest).foldl (refUnit w) init ≠
      (before ++ u :: rest).foldl (refUnit w) init := by
  simp only [List.foldl_append, List.foldl_cons]
  exact (foldl_refUnit_injective w rest).ne (refUpdate_changed_ne _ u (bits_le w) hbit)

theorem referenceContract (w : DataWidth) (init : Acc) :
    CrcContract w init (refUnit w) fun acc => decide (acc ≠ 0xDEBB20E3#32) := by
  refine ⟨fun p _ => ⟨referenceCheck w (p.foldl (refUnit w) init), ⟨length_unitsOf w _ _, unitsOf_narrow w _ _, ?_⟩, ?_⟩, ?_⟩
  · rw [List.foldl_append, foldl_referenceCheck]
    rfl
  · intro g hlen hnarrow hok
    rw [List.foldl_append, decide_eq_false_iff_not, not_not] at hok
    exact eq_referenceCheck_of_foldl hlen hnarrow hok
  · intro before after f u bit hbit _ _ hok
    rw [decide_eq_false_iff_not, not_not, List.append_assoc, List.cons_append] at hok
    rw [decide_eq_true_iff, List.append_assoc, List.cons_append, ← hok]
    exact foldl_refUnit_changed_ne hbit init before (after ++ f) u

/-- Settles O46: a word of 32 bits takes the accumulator to the residue exactly where it is the complement, and a changed bit
is never undone. -/
theorem referenceEngineContract : Obligations.ReferenceEngineContract := by
  intro s h
  rw [crcUpdate_of_reference h, funext (crcError_of_reference h)]
  exact referenceContract s.params.dw (crcInit s)

/-- Settles O47: the complement of the fold takes it to the residue. -/
theorem referenceCheckSequence : Obligations.ReferenceCheckSequence := by
  intro s payload h
  simp only [IsCheckSequence, crcUpdate_of_reference h]
  have hres : (payload ++ referenceCheck s.params.dw (payload.foldl (refUnit s.params.dw) (crcInit s))).foldl
      (refUnit s.params.dw) (crcInit s) = 0xDEBB20E3#32 := by
    rw [List.foldl_append]
    exact foldl_referenceCheck _ _
  refine ⟨hres, length_unitsOf _ _ _, ?_⟩
  rw [hres, crcError_of_reference h]
  rfl

end Sys2Proof.Proofs
end

section
/-! PROOFS. Proofs/CrcFrame.lean: the round trip of 44_crc_checker.md R242: what an idle checker makes of the units of one frame,
whatever ticks they come in. -/

namespace Sys2Proof.Proofs

open Sys2Proof.Machine Sys2Proof.Safety

/-! ## Frames as lists of units (30_encoding.md R100) -/

/-- A unit of a frame without a mark. -/
def unmarked (u : DataUnit) : StreamUnit := { data := u, sop := false, eop := false }

/-- The units of a frame before its last: the first is marked start, none is marked end. -/
def opening : List DataUnit → List StreamUnit
  | [] => []
  | u :: us => { data := u, sop := true, eop := false } :: us.map unmarked

theorem frameTail_concat (us : List DataUnit) (v : DataUnit) :
    frameTail (us ++ [v]) = us.map unmarked ++ [{ data := v, sop := false, eop := true }] := by
  induction us with
  | nil => rfl
  | cons u us ih =>
    have hcons : frameTail (u :: (us ++ [v])) = unmarked u :: frameTail (us ++ [v]) := by cases us <;> rfl
    rw [List.cons_append, hcons, ih]
    rfl

theorem frame_concat (us : List DataUnit) (v : DataUnit) :
    frame (us ++ [v]) = opening us ++ [{ data := v, sop := us.isEmpty, eop := true }] := by
  cases us with
  | nil => rfl
  | cons u us =>
    have hcons : frame (u :: (us ++ [v])) = { data := u, sop := true, eop := false } :: frameTail (us ++ [v]) := by
      cases us <;> rfl
    rw [List.cons_append, hcons, frameTail_concat]
    rfl

theorem opening_append {us : List DataUnit} (h : us ≠ []) (vs : List DataUnit) :
    opening (us ++ vs) = opening us ++ vs.map unmarked := by
  obtain ⟨u, us, rfl⟩ := List.exists_cons_of_ne_nil h
  simp only [List.cons_append, opening, List.map_append]

theorem opening_concat (us : List DataUnit) (v : DataUnit) :
    opening (us ++ [v]) = opening us ++ [{ data := v, sop := us.isEmpty, eop := false }] := by
  cases us with
  | nil => rfl
  | cons u us => rw [opening_append (List.cons_ne_nil u us)]; rfl

theorem eop_of_mem_opening {us : List DataUnit} : ∀ x ∈ opening us, x.eop = false := by
  cases us with
  | nil => simp [opening]
  | cons u us => simp [opening, unmarked]

theorem map_data_opening (us : List DataUnit) : (opening us).map StreamUnit.data = us := by
  cases us with
  | nil => rfl
  | cons u us =>
    have hdata : StreamUnit.data ∘ unmarked = id := rfl
    rw [opening, List.map_cons, List.map_map, hdata, List.map_id]

theorem map_data_frame (us : List DataUnit) : (frame us).map StreamUnit.data = us := by
  rcases List.eq_nil_or_concat us with rfl | ⟨us, v, rfl⟩
  · rfl
  · rw [List.concat_eq_append, frame_concat, List.map_append, map_data_opening]
    rfl

/-- The end mark does not enter the buffer. -/
theorem bufferedIn_frame (us : List DataUnit) : bufferedIn (frame us) = bufferedIn (opening us) := by
  rcases List.eq_nil_or_concat us with rfl | ⟨us, v, rfl⟩
  · rfl
  · rw [List.concat_eq_append, frame_concat, opening_concat, bufferedIn_append, bufferedIn_append]
    rfl

/-! ## A beat as a unit -/

/-- A beat of the output stream without its error flag. -/
def shown (b : OutBeat) : StreamUnit := { data := b.data, sop := b.sop, eop := b.eop }

/-- Where no end mark stands on either side, beats are known by what left the buffer. -/
theorem map_shown_eq {bs : List OutBeat} {us : List StreamUnit} (h : bufferedOut bs = bufferedIn us)
    (hbs : ∀ b ∈ bs, b.eop = false) (hus : ∀ u ∈ us, u.eop = false) : bs.map shown = us := by
  induction bs generalizing us with
  | nil => exact (List.map_eq_nil_iff.mp h.symm).symm
  | cons b bs ih =>
    cases us with
    | nil => cases h
    | cons u us =>
      simp only [bufferedOut, bufferedIn, List.map_cons, List.cons.injEq, Prod.mk.injEq] at h
      obtain ⟨⟨hdata, hsop⟩, hrest⟩ := h
      have hhead : shown b = u := by
        rw [shown, hdata, hsop, hbs b List.mem_cons_self, ← hus u List.mem_cons_self]
      rw [List.map_cons, hhead,
        ih hrest (fun b hb => hbs b (List.mem_cons_of_mem _ hb)) fun u hu => hus u (List.mem_cons_of_mem _ hu)]

/-! ## One tick -/

section Tick
variable {s : State}

theorem beatIn_cases (s : State) : (fifoIn s = false ∧ beatIn s = []) ∨
    (fifoIn s = true ∧ beatIn s = [{ data := sinkUnit s, sop := s.now.sinkSop, eop := s.now.sinkEop }]) := by
  cases h : fifoIn s with
  | false => exact .inl ⟨rfl, beatIn_of_not_accepted h⟩
  | true => exact .inr ⟨rfl, beatIn_of_accepted h⟩

theorem accepted_of_beatIn {u : StreamUnit} (h : beatIn s = [u]) :
    fifoIn s = true ∧ sinkUnit s = u.data ∧ s.now.sinkSop = u.sop ∧ s.now.sinkEop = u.eop := by
  rcases beatIn_cases s with ⟨-, hnone⟩ | ⟨hin, hone⟩
  · rw [hnone] at h; cases h
  · rw [hone] at h; cases h
    exact ⟨hin, rfl, rfl, rfl⟩

/-- A beat carries the end mark of the unit that stands at the input (R226). -/
theorem eop_of_mem_beatOut {b : OutBeat} (h : b ∈ beatOut s) : b.eop = s.now.sinkEop := by
  rw [beatOut_eq] at h
  split at h
  · rw [List.mem_singleton.mp h]; rfl
  · cases h

/-- A unit accepted by a full buffer pushes a beat out (R222, R223). -/
theorem beatOut_of_full (hin : fifoIn s = true) (hfull : fifoFull s = true) : beatOut s =
    [{ data := sourceData s, sop := sourceSop s, eop := s.now.sinkEop, error := sourceError s }] := by
  have hout : fifoOut s = true := by
    rw [fifoOut_eq, hfull, Bool.and_true]
    rwa [fifoIn_eq, hfull, Bool.not_true, Bool.false_or] at hin
  rw [beatOut_eq, if_pos hout]
  rfl

/-- Accepted units fill the buffer up to `RATIO` entries, and one leaves for one then. -/
theorem level_tick_of_accepted (hrun : s.cur.cstate ≠ .reset) (hin : fifoIn s = true) (hle : level s ≤ ratio s) :
    level (tick s) = min (level s + 1) (ratio s) := by
  have hlevel : level (tick s) = (bufNext s).length := rfl
  rcases bufNext_cases s with ⟨hreset, -⟩ | ⟨-, hnot, -⟩ | ⟨-, -, -, hroom, hnext⟩ | ⟨-, -, hout, e, es, hbuf, hnext⟩
  · exact absurd hreset hrun
  · rw [hin] at hnot; cases hnot
  · have hne : level s ≠ ratio s := beq_eq_false_iff_ne.mp hroom
    have hlen : level (tick s) = level s + 1 := by rw [hlevel, hnext, List.length_append]; rfl
    omega
  · have hfull : level s = ratio s := (fifoIn_of_fifoOut hout).2
    have hlen : level (tick s) = level s := by rw [hlevel, hnext, List.length_append, level, hbuf]; rfl
    omega

/-- In COPY a unit taken is accumulated, and the end mark leads to RESET (R233, R240). -/
theorem tick_of_taken (h : s.cur.cstate = .copy) (hin : fifoIn s = true) :
    (tick s).cur.cstate = (if s.now.sinkEop = true then .reset else .copy) ∧ (tick s).cur.crcAcc = crcNext s := by
  rw [tick_cstate, tick_crcAcc, currentCrcRow_of_taken h hin]
  exact ⟨rfl, rfl⟩

/-- In IDLE an accepted unit marked start is accumulated and leads to COPY (R233, R239). -/
theorem tick_of_begin (h : s.cur.cstate = .idle) (hin : fifoIn s = true) (hsop : s.now.sinkSop = true) :
    (tick s).cur.cstate = .copy ∧ (tick s).cur.crcAcc = crcNext s := by
  rw [tick_cstate, tick_crcAcc, currentCrcRow_of_begin h hin hsop]
  exact ⟨rfl, rfl⟩

/-- The checker between two frames: idle, empty, cleared. -/
def Cleared (s : State) : Prop := s.cur.cstate = .idle ∧ s.cur.buf = [] ∧ s.cur.crcAcc = crcInit s

/-- The one tick in RESET (R238). -/
theorem tick_cleared (h : s.cur.cstate = .reset) : Cleared (tick s) := by
  refine ⟨?_, ?_, ?_⟩
  · rw [tick_cstate, currentCrcRow_of_reset h]; rfl
  · rw [tick_buf, bufNext_eq, if_pos h]
  · rw [tick_crcAcc, currentCrcRow_of_reset h]; rfl

end Tick

/-! ## Several ticks -/

theorem acceptedOver_succ (k : Nat) (s : State) : acceptedOver (k + 1) s = acceptedOver k s ++ beatIn (ticks k s) := by
  induction k generalizing s with
  | zero => exact List.append_nil _
  | succ k ih => rw [acceptedOver, ih, ← List.append_assoc]; rfl

theorem emittedOver_succ (k : Nat) (s : State) : emittedOver (k + 1) s = emittedOver k s ++ beatOut (ticks k s) := by
  induction k generalizing s with
  | zero => exact List.append_nil _
  | succ k ih => rw [emittedOver, ih, ← List.append_assoc]; rfl

theorem narrow_of_mem_acceptedOver {k : Nat} {s : State} {u : StreamUnit} (h : u ∈ acceptedOver k s) :
    unitOf s.params.dw u.data = u.data := by
  induction k with
  | zero => cases h
  | succ k ih =>
    rw [acceptedOver_succ, List.mem_append] at h
    rcases h with hbefore | hlast
    · exact ih hbefore
    · rcases beatIn_cases (ticks k s) with ⟨-, hnone⟩ | ⟨-, hone⟩
      · rw [hnone] at hlast; cases hlast
      · rw [hone] at hlast
        rw [List.mem_singleton.mp hlast, ← ticks_params k s]
        exact sinkUnit_narrow _

section Parameters
variable (k : Nat) (s : State)
theorem ratio_ticks : ratio (ticks k s) = ratio s := by rw [ratio, ratio, ticks_params]
theorem crcInit_ticks : crcInit (ticks k s) = crcInit s := by simp only [crcInit, ticks_params]
theorem crcUpdate_ticks : crcUpdate (ticks k s) = crcUpdate s := by
  funext acc u; simp only [crcUpdate, ticks_params]
theorem crcError_ticks : crcError (ticks k s) = crcError s := by
  funext acc; simp only [crcError, ticks_params]
end Parameters

/-! ## The opening units of a frame

The units accepted say everything about the checker; the ticks in which nothing was accepted have left no trace. -/

/-- What an idle checker has become when, after `k` ticks, it has accepted the opening units `us` of a frame. -/
structure FrameOpened (s : State) (k : Nat) (us : List DataUnit) : Prop where
  cstate : (ticks k s).cur.cstate = if us = [] then .idle else .copy
  acc : (ticks k s).cur.crcAcc = us.foldl (crcUpdate s) (crcInit s)
  held : level (ticks k s) = min us.length (ratio s)
  running : ∀ j, j < k → (ticks j s).cur.cstate ≠ .reset
  eop : ∀ b ∈ emittedOver k s, b.eop = false

namespace FrameOpened
variable {s : State} {k : Nat} {us : List DataUnit} {v : DataUnit}

theorem of_cleared (h : Cleared s) : FrameOpened s 0 [] := by
  obtain ⟨hidle, hbuf, hacc⟩ := h
  refine ⟨hidle, hacc, ?_, fun j hj => absurd hj j.not_lt_zero, List.forall_mem_nil _⟩
  rw [ticks, level, hbuf]
  exact (Nat.zero_min _).symm

theorem cstate_ne_reset (h : FrameOpened s k us) : (ticks k s).cur.cstate ≠ .reset := by
  rw [h.cstate]
  split <;> exact CrcState.noConfusion

theorem running_succ (h : FrameOpened s k us) : ∀ j, j < k + 1 → (ticks j s).cur.cstate ≠ .reset := by
  intro j hj
  rcases Nat.lt_succ_iff_lt_or_eq.mp hj with hbefore | rfl
  · exact h.running j hbefore
  · exact h.cstate_ne_reset

theorem crcNext_eq (h : FrameOpened s k us) (hunit : sinkUnit (ticks k s) = v) :
    crcNext (ticks k s) = (us ++ [v]).foldl (crcUpdate s) (crcInit s) := by
  rw [crcNext, hunit, h.acc, crcUpdate_ticks, List.foldl_append]
  rfl

theorem held_accepted (h : FrameOpened s k us) (hin : fifoIn (ticks k s) = true) :
    level (ticks (k + 1) s) = min (us.length + 1) (ratio s) := by
  have hle : level (ticks k s) ≤ ratio (ticks k s) := by rw [h.held, ratio_ticks]; exact Nat.min_le_right _ _
  rw [ticks_succ, level_tick_of_accepted h.cstate_ne_reset hin hle, h.held, ratio_ticks]
  omega

theorem stalled (h : FrameOpened s k us) (hin : fifoIn (ticks k s) = false) : FrameOpened s (k + 1) us := by
  obtain ⟨hbuf, hacc, hcstate⟩ := tick_of_stalled h.cstate_ne_reset hin
  have hlevel : level (tick (ticks k s)) = level (ticks k s) := congrArg List.length hbuf
  refine ⟨?_, ?_, ?_, h.running_succ, ?_⟩
  · rw [ticks_succ, hcstate, h.cstate]
  · rw [ticks_succ, hacc, h.acc]
  · rw [ticks_succ, hlevel, h.held]
  · rw [emittedOver_succ, beatOut_of_not_emitted (fifoOut_of_not_fifoIn hin), List.append_nil]
    exact h.eop

theorem accepted (h : FrameOpened s k us) (hbeat : beatIn (ticks k s) = [{ data := v, sop := us.isEmpty, eop := false }]) :
    FrameOpened s (k + 1) (us ++ [v]) := by
  obtain ⟨hin, hunit, hsop, heop⟩ := accepted_of_beatIn hbeat
  have hnext : (tick (ticks k s)).cur.cstate = .copy ∧ (tick (ticks k s)).cur.crcAcc = crcNext (ticks k s) := by
    by_cases hus : us = []
    · exact tick_of_begin (h.cstate.trans (if_pos hus)) hin (hsop.trans (List.isEmpty_iff.mpr hus))
    · simpa only [heop, Bool.false_eq_true, if_false] using tick_of_taken (h.cstate.trans (if_neg hus)) hin
  obtain ⟨hcstate, hacc⟩ := hnext
  refine ⟨?_, ?_, ?_, h.running_succ, ?_⟩
  · rw [ticks_succ, hcstate, if_neg (List.append_ne_nil_of_right_ne_nil us (List.cons_ne_nil v []))]
  · rw [ticks_succ, hacc, h.crcNext_eq hunit]
  · rw [h.held_accepted hin, List.length_append]
    rfl
  · rw [emittedOver_succ]
    exact List.forall_mem_append.mpr ⟨h.eop, fun b hb => (eop_of_mem_beatOut hb).trans heop⟩

/-- The invariant holds whenever what was accepted opens a frame, by induction on the ticks. -/
theorem of_acceptedOver (hclear : Cleared s) (hopen : acceptedOver k s = opening us) : FrameOpened s k us := by
  induction k generalizing us with
  | zero =>
    have hnil : us = [] := by rw [← map_data_opening us, ← hopen]; rfl
    exact hnil ▸ of_cleared hclear
  | succ k ih =>
    rw [acceptedOver_succ] at hopen
    rcases beatIn_cases (ticks k s) with ⟨hin, hnone⟩ | ⟨-, hone⟩
    · rw [hnone, List.append_nil] at hopen
      exact (ih hopen).stalled hin
    · rcases List.eq_nil_or_concat us with rfl | ⟨us, v, rfl⟩
      · rw [hone] at hopen
        exact absurd hopen (List.append_ne_nil_of_right_ne_nil _ (List.cons_ne_nil _ []))
      · rw [List.concat_eq_append, opening_concat] at hopen
        obtain ⟨hbefore, hlast⟩ := List.append_inj' hopen (by rw [hone]; rfl)
        rw [List.concat_eq_append]
        exact (ih hbefore).accepted hlast

/-- The last unit of a frame that is longer than the buffer: it pushes out the last payload unit, under the verdict on the whole
frame (R226, R234), and the next tick clears the checker (R240). -/
theorem closed (h : FrameOpened s k us) (hlong : ratio s ≤ us.length)
    (hbeat : beatIn (ticks k s) = [{ data := v, sop := us.isEmpty, eop := true }]) :
    (ticks (k + 1) s).cur.cstate = .reset ∧ level (ticks (k + 1) s) = ratio s ∧
      ∃ b : OutBeat, emittedOver (k + 1) s = emittedOver k s ++ [b] ∧ b.eop = true ∧
        b.error = crcError s ((us ++ [v]).foldl (crcUpdate s) (crcInit s)) := by
  obtain ⟨hin, hunit, -, heop⟩ := accepted_of_beatIn hbeat
  have hus : us ≠ [] := List.ne_nil_of_length_pos ((ratio_pos s.params.dw).trans_le hlong)
  have hcopy : (ticks k s).cur.cstate = .copy := h.cstate.trans (if_neg hus)
  have hfull : fifoFull (ticks k s) = true := by
    rw [fifoFull, beq_iff_eq, h.held, ratio_ticks, Nat.min_eq_right hlong]
  refine ⟨?_, ?_, _, (emittedOver_succ k s).trans (congrArg _ (beatOut_of_full hin hfull)), heop, ?_⟩
  · rw [ticks_succ, (tick_of_taken hcopy hin).1, if_pos heop]
  · rw [h.held_accepted hin, Nat.min_eq_right (Nat.le_succ_of_le hlong)]
  · rw [sourceError, crcError_ticks, h.crcNext_eq hunit]

end FrameOpened

/-! ## The whole frame -/

/-- The last unit of a frame comes in the last of the ticks, and before it the frame's opening units have. -/
theorem acceptedOver_split {k : Nat} {s : State} {us : List DataUnit} {v : DataUnit}
    (hnot : acceptedOver k s ≠ frame (us ++ [v])) (hall : acceptedOver (k + 1) s = frame (us ++ [v])) :
    acceptedOver k s = opening us ∧ beatIn (ticks k s) = [{ data := v, sop := us.isEmpty, eop := true }] := by
  rw [acceptedOver_succ] at hall
  rcases beatIn_cases (ticks k s) with ⟨-, hnone⟩ | ⟨-, hone⟩
  · rw [hnone, List.append_nil] at hall
    exact absurd hall hnot
  · rw [frame_concat] at hall
    exact List.append_inj' hall (by rw [hone]; rfl)

/-- First in, first out: the check sequence stays in the buffer, so the payload has left it (20_memory.md R81). -/
theorem bufferedOut_payload {n : Nat} {s : State} {payload check : List DataUnit} (hempty : s.cur.buf = [])
    (hrun : ∀ j, j < n → (ticks j s).cur.cstate ≠ .reset) (hpayload : payload ≠ [])
    (hall : acceptedOver n s = frame (payload ++ check)) (hheld : level (ticks n s) = check.length) :
    bufferedOut (emittedOver n s) = bufferedIn (opening payload) := by
  have hfifo := ticks_buffer_fifo n hrun
  rw [hall, bufferedIn_frame, opening_append hpayload, bufferedIn_append, heldUnits, hempty, List.map_nil,
    List.nil_append] at hfifo
  have hlen : (bufferedIn (check.map unmarked)).length = (heldUnits (ticks n s)).length := by
    rw [bufferedIn, List.length_map, List.length_map, heldUnits, List.length_map]
    exact hheld.symm
  exact (List.append_inj' hfifo hlen).1.symm

/-- What leaves the buffer as a payload, with the end mark on the last beat alone, is the payload's frame. -/
theorem map_shown_eq_frame {bs : List OutBeat} {b : OutBeat} {payload : List DataUnit}
    (hunits : bufferedOut (bs ++ [b]) = bufferedIn (opening payload)) (hbs : ∀ x ∈ bs, x.eop = false) (hb : b.eop = true) :
    (bs ++ [b]).map shown = frame payload := by
  rw [bufferedOut_append] at hunits
  rcases List.eq_nil_or_concat payload with rfl | ⟨us, v, rfl⟩
  · exact absurd hunits (List.append_ne_nil_of_right_ne_nil _ (List.cons_ne_nil _ []))
  · rw [List.concat_eq_append, opening_concat, bufferedIn_append] at hunits
    obtain ⟨hbefore, hlast⟩ := List.append_inj' hunits rfl
    obtain ⟨hdata, hsop⟩ := Prod.mk.inj (List.singleton_inj.mp hlast)
    rw [List.concat_eq_append, frame_concat, List.map_append, map_shown_eq hbefore hbs eop_of_mem_opening, List.map_singleton,
      shown, hdata, hsop, hb]

/-! ## The verdict on a changed frame (R235) -/

/-- The external engine is held to the contract by the premise; the reference engine meets it. -/
theorem contract_of_engine {s : State} (h : EngineMeetsContract s) :
    CrcContract s.params.dw (crcInit s) (crcUpdate s) (crcError s) := by
  cases hengine : s.params.engine with
  | external => exact h hengine
  | reference => exact referenceEngineContract s hengine

/-- A unit is no wider for a changed bit of its own. -/
theorem narrow_of_changed {w : DataWidth} {u : DataUnit} {bit : Nat} (hbit : bit < w.bits)
    (h : unitOf w (u ^^^ BitVec.twoPow 32 bit) = u ^^^ BitVec.twoPow 32 bit) : unitOf w u = u := by
  rwa [unitOf_xor, unitOf_twoPow hbit, BitVec.xor_left_inj] at h

theorem crcError_of_changed {s : State} {before after check : List DataUnit} {u : DataUnit} {bit : Nat}
    (hcontract : EngineMeetsContract s) (hbit : bit < s.params.dw.bits)
    (hnarrow : ∀ v ∈ (before ++ (u ^^^ BitVec.twoPow 32 bit) :: after) ++ check, unitOf s.params.dw v = v)
    (hcheck : IsCheckSequence s (before ++ u :: after) check) :
    crcError s (((before ++ (u ^^^ BitVec.twoPow 32 bit) :: after) ++ check).foldl (crcUpdate s) (crcInit s)) = true := by
  obtain ⟨hlen, hok⟩ := hcheck
  have hintact : ∀ v ∈ before ++ u :: after ++ check, unitOf s.params.dw v = v := by
    simp only [List.forall_mem_append, List.forall_mem_cons] at hnarrow ⊢
    obtain ⟨⟨hbefore, hchanged, hafter⟩, hchecked⟩ := hnarrow
    exact ⟨⟨hbefore, narrow_of_changed hbit hchanged, hafter⟩, hchecked⟩
  exact (contract_of_engine hcontract).2 before after check u bit hbit hlen hintact hok

/-- Every unit of an accepted frame has the width of the checker's units. -/
theorem narrow_of_accepted_frame {k : Nat} {s : State} {us : List DataUnit} (hall : acceptedOver k s = frame us) :
    ∀ u ∈ us, unitOf s.params.dw u = u := by
  intro u hu
  rw [← map_data_frame us, ← hall] at hu
  obtain ⟨x, hx, rfl⟩ := List.mem_map.mp hu
  exact narrow_of_mem_acceptedOver hx

/-- Settles O45: the opening units leave the checker in COPY with a full buffer, the last one pushes out the payload's last
beat; what came out is what the buffer passed. -/
theorem frameRoundTrip : Obligations.FrameRoundTrip := by
  intro k s payload check hidle hempty hacc hpayload hlen hnot hall
  have hratio : check.length = ratio s := hlen
  obtain ⟨cs, v, rfl⟩ : ∃ cs v, check = cs ++ [v] :=
    (List.eq_nil_or_concat' check).resolve_left
      (List.ne_nil_of_length_pos (hratio ▸ ratio_pos s.params.dw))
  have hlong : ratio s ≤ (payload ++ cs).length := by
    have hpos := List.length_pos_iff.mpr hpayload
    simp only [List.length_append, List.length_singleton] at hratio ⊢
    omega
  rw [← List.append_assoc] at hnot
  obtain ⟨hopening, hlast⟩ := acceptedOver_split hnot ((List.append_assoc payload cs [v]).symm ▸ hall)
  have hopened := FrameOpened.of_acceptedOver ⟨hidle, hempty, hacc⟩ hopening
  obtain ⟨hreset, hheld, b, hemitted, heop, herror⟩ := hopened.closed hlong hlast
  rw [List.append_assoc] at herror
  have hunits := bufferedOut_payload hempty hopened.running_succ hpayload hall (hheld.trans hratio.symm)
  rw [hemitted] at hunits ⊢
  have hcleared : Cleared (ticks (k + 2) s) := ticks_succ (k + 1) s ▸ tick_cleared hreset
  obtain ⟨hidle', hempty', hacc'⟩ := hcleared
  refine ⟨map_shown_eq_frame hunits hopened.eop heop,
    ⟨b, List.getLast?_concat, herror, fun hcheck => herror.trans hcheck.2, ?_⟩,
    hreset, hidle', hempty', hacc'.trans (crcInit_ticks (k + 2) s)⟩
  rintro hcontract before after u bit hbit rfl hcheck
  exact herror.trans (crcError_of_changed hcontract hbit (narrow_of_accepted_frame hall) hcheck)

end Sys2Proof.Proofs
end

section
/-! PROOFS. Proofs/Exceptions.lean: the statements of 60_exceptions.md: every operation answers a next state, and the three ways
a step goes: a tick, an operation, or the refusal of an undecodable word. -/

namespace Sys2Proof.Proofs

open Sys2Proof.Machine

/-! ## Operations (60_exceptions.md R255) -/

/-- Settles O7: the meaning of each operation is the next state it computes. The rows and BUS.START choose inside that state,
never between a state and a refusal. -/
theorem everyOperationCompletes : Obligations.EveryOperationCompletes := by
  intro i s
  cases i
  -- the wires, registers and register accesses of one tick, the rows of both machines, the master's operations
  all_goals exact ⟨_, rfl⟩

/-! ## The step (00_scope.md R6) -/

section Step
variable {s : State}

theorem step_of_script_nil (hscript : s.script = []) : step s = .next (tick s) := by
  simp only [step, fetchWord_nil s hscript]

theorem step_of_undecodable {w : OpWord} {rest : List OpWord} {why : DecodeError} (hscript : s.script = w :: rest)
    (hdecode : decode w = .error why) : step s = .refused (.notAnOperation why) := by
  simp only [step, fetchWord_cons s w rest hscript, hdecode]

/-- Everything a step can do. -/
theorem step_cases (s : State) :
    (s.script = [] ∧ step s = .next (tick s)) ∨
    (∃ w rest i t, s.script = w :: rest ∧ decode w = .ok i ∧ exec i { s with script := rest } = .next t ∧ step s = .next t) ∨
    (∃ w rest why, s.script = w :: rest ∧ decode w = .error why ∧ step s = .refused (.notAnOperation why)) := by
  cases hscript : s.script with
  | nil => exact .inl ⟨rfl, step_of_script_nil hscript⟩
  | cons w rest =>
    cases hdecode : decode w with
    | ok i =>
      obtain ⟨t, hexec⟩ := everyOperationCompletes i { s with script := rest }
      have hstep := stepRunsDecodedOperation s w rest i hscript hdecode
      exact .inr (.inl ⟨w, rest, i, t, rfl, hdecode, hexec, hstep.trans hexec⟩)
    | error why => exact .inr (.inr ⟨w, rest, why, rfl, hdecode, step_of_undecodable hscript hdecode⟩)

/-- A tick and an operation both answer a next state, so a refusal can only come from the decoder. -/
theorem step_refused_iff {r : Refusal} : step s = .refused r ↔
    ∃ w rest why, s.script = w :: rest ∧ decode w = .error why ∧ r = .notAnOperation why := by
  constructor
  · intro hrefused
    obtain ⟨-, hstep⟩ | ⟨_, _, _, _, -, -, -, hstep⟩ | ⟨w, rest, why, hscript, hdecode, hstep⟩ := step_cases s
    · cases hstep.symm.trans hrefused
    · cases hstep.symm.trans hrefused
    · cases hstep.symm.trans hrefused
      exact ⟨w, rest, why, hscript, hdecode, rfl⟩
  · rintro ⟨w, rest, why, hscript, hdecode, rfl⟩
    exact step_of_undecodable hscript hdecode

theorem step_ne_fault (f : Fault) : step s ≠ .fault f := by
  intro hfault
  obtain ⟨-, hstep⟩ | ⟨_, _, _, _, -, -, -, hstep⟩ | ⟨_, _, _, -, -, hstep⟩ := step_cases s
  all_goals cases hstep.symm.trans hfault

end Step

/-- Settles O6: the step without a script, and the two exclusions among what a step can do. -/
theorem stepOutcomes : Obligations.StepOutcomes :=
  ⟨fun _ => step_of_script_nil, fun _ => step_ne_fault, fun _ _ => step_refused_iff⟩

end Sys2Proof.Proofs
end

section
/-! PROOFS. Proofs/ResetHazards.lean: the statements of 70_reset_and_hazards.md: the configured image, the data line pulled for
ever, and the line released for one tick before a first data bit. -/

namespace Sys2Proof.Proofs

open Sys2Proof.Machine Sys2Proof.Safety

/-! ## The configuration (R289; 00_scope.md R10) -/

section Configuration
variable {dw : Nat} {image : List Nat} {p q : Bool} {e : CrcEngine}

theorem bits_of_widthOf {w : DataWidth} (h : widthOf dw = some w) : w.bits = dw := by
  unfold widthOf at h
  split at h
  all_goals cases h
  all_goals rfl

theorem widthOf_bits (w : DataWidth) : widthOf w.bits = some w := by cases w <;> rfl

theorem bits_dvd (w : DataWidth) : w.bits ∣ 32 := ⟨w.ratio, (bits_mul_ratio w).symm⟩

/-- The divisors of 32 are the powers of two up to it, and each is a width. -/
theorem exists_bits_of_dvd (h : dw ∣ 32) : ∃ w : DataWidth, w.bits = dw := by
  obtain ⟨k, hk, rfl⟩ := (Nat.dvd_prime_pow Nat.prime_two (m := 5)).mp h
  match k, hk with
  | 0, _ => exact ⟨.w1, rfl⟩
  | 1, _ => exact ⟨.w2, rfl⟩
  | 2, _ => exact ⟨.w4, rfl⟩
  | 3, _ => exact ⟨.w8, rfl⟩
  | 4, _ => exact ⟨.w16, rfl⟩
  | 5, _ => exact ⟨.w32, rfl⟩

theorem exists_widthOf_iff : (∃ w, widthOf dw = some w) ↔ dw ∣ 32 := by
  constructor
  · rintro ⟨w, hw⟩
    exact bits_of_widthOf hw ▸ bits_dvd w
  · intro hdvd
    obtain ⟨w, rfl⟩ := exists_bits_of_dvd hdvd
    exact ⟨w, widthOf_bits w⟩

/-- The loader refuses for the width or for the image, and for nothing else. -/
theorem exists_configure_iff :
    (∃ s, configure dw image p q e = .ok s) ↔
      (∃ w, widthOf dw = some w) ∧ image.length = 128 ∧ ∀ b ∈ image, b < 256 := by
  unfold configure
  cases widthOf dw with
  | none => simp
  | some w =>
    have hbytes : (image.all fun b => decide (b < 256)) = true ↔ ∀ b ∈ image, b < 256 := by simp
    simp only [hbytes, Config.memBytes]
    split_ifs with himage
    · exact ⟨fun _ => ⟨⟨w, rfl⟩, himage⟩, fun _ => ⟨_, rfl⟩⟩
    · exact ⟨fun ⟨_, hrefused⟩ => (nomatch hrefused), fun ⟨_, hadmitted⟩ => absurd hadmitted himage⟩

/-- Each byte loaded is read at its address: the later ones are stored above it. -/
theorem loadImage_read {m : List Host.Cell} {a : Nat} {bytes : List Nat} {c : BitVec 7} (hwf : Memory.wf m = true)
    (hroom : a + bytes.length ≤ 128) (hle : a ≤ c.toNat) (hlt : c.toNat < a + bytes.length) :
    Memory.read (loadImage m a bytes) c = BitVec.ofNat 8 (bytes.getD (c.toNat - a) 0) := by
  induction bytes generalizing m a with
  | nil => simp only [List.length_nil] at hlt; omega
  | cons b bs ih =>
    rw [List.length_cons] at hroom hlt
    rw [loadImage]
    by_cases hhere : c.toNat = a
    · have hfirst : BitVec.ofNat 7 a = c := by rw [← hhere, BitVec.ofNat_toNat, BitVec.setWidth_eq]
      rw [loadImage_read_below (a + 1) bs c (by omega) (by omega), hfirst, Memory.read_write_same c _ hwf, hhere,
        Nat.sub_self, List.getD_cons_zero]
    · have hnext : c.toNat - a = (c.toNat - (a + 1)) + 1 := by omega
      rw [ih (Memory.write_wf _ _ hwf) (by omega) (by omega) (by omega), hnext, List.getD_cons_succ]

theorem configure_memRead {s : State} (h : configure dw image p q e = .ok s) (a : BitVec 7) :
    memRead s a = BitVec.ofNat 8 (image.getD a.toNat 0) := by
  obtain ⟨w, -, hlength, rfl⟩ := configure_ok h
  have ha : a.toNat < 128 := a.isLt
  exact loadImage_read rfl (by omega) (Nat.zero_le _) (by omega)

end Configuration

/-- Settles O9: the two refusals are the two conditions, and what is answered is the reset state but for the loaded memory and
the parameters. -/
theorem configuredImageIsRead : Obligations.ConfiguredImageIsRead := by
  intro dw image p q e
  refine ⟨exists_configure_iff.trans (and_congr_left' exists_widthOf_iff), fun s h => ?_⟩
  have hwf := configure_memory_wf h
  have hread := configure_memRead h
  obtain ⟨w, hw, -, rfl⟩ := configure_ok h
  exact ⟨rfl, bits_of_widthOf hw, hwf, hread, rfl, rfl, rfl⟩

/-! ## What the drive latch shows on the line (41_byte_engine.md R138 to R143) -/

section Drive
variable {s : State} {bit : Bool}

theorem sdaOe_of_released (hzero : zeroDrv s = false) (hdrv : s.cur.dataDrv = false) : sdaOe s = false := by
  rw [sdaOe, hzero, hdrv]; rfl

theorem sdaOe_of_presents (hzero : zeroDrv s = false) (h : Presents bit s) : sdaOe s = !bit := by
  obtain ⟨hdrv, hbit⟩ := h
  rw [sdaOe, hzero, hdrv, hbit]; rfl

/-- A presented 0 pulls the line low in every state, whatever the master does. -/
theorem sdaLine_of_presents_zero (h : Presents false s) (masterSda : Bool) : sdaLine masterSda s = false := by
  obtain ⟨hdrv, hbit⟩ := h
  simp only [sdaLine, sdaOe, hdrv, hbit, Bool.not_false, Bool.and_true, Bool.or_true, Bool.not_true, Bool.and_false]

/-- Only a strobe changes the latch or the bit (R140). -/
theorem presents_tick_of_quiet {next : EdidState} (hrow : currentRow s = quietRow next) (h : Presents bit s) :
    Presents bit (tick s) := by
  rw [Presents, tick_dataDrv, tick_dataBit, hrow]
  exact h

theorem presents_tick_of_read_open (hstate : s.cur.state = .read) (hclock : s.cur.sclI = false)
    (hlt : s.cur.counter.toNat < 8) :
    Presents ((memRead s s.cur.offset).getLsbD (7 - s.cur.counter.toNat)) (tick s) := by
  have hopen : s.cur.counter ≠ 8#4 := by bv_omega
  rw [Presents, tick_dataDrv, tick_dataBit, currentRow_of_read_open hstate hclock hopen, bitToSend_of_open hlt.le hopen]
  exact ⟨rfl, rfl⟩

end Drive

/-! ## The data line pulled for ever (R294) -/

section StuckLine
variable {s : State}

theorem stuckLow_iff : StuckLow s ↔ s.cur.state = .waitStart ∧ Presents false s ∧ DataAt false s := by
  rw [StuckLow, Presents, DataAt, and_assoc]

/-- A line that shows low and carries low makes no START, so the engine is stuck once the tick leads to `WAIT_START` and leaves a
0 presented. -/
theorem stuckLow_busTick_of {c d : Bool} (hnext : nextState s = .waitStart) (hpresents : Presents false (busTick c d s))
    (hdata : DataAt false s) (hline : sdaLine d s = false) : StuckLow (busTick c d s) :=
  stuckLow_iff.mpr ⟨hnext, hpresents, dataAt_tick hdata hline⟩

/-- Without START nothing leaves `WAIT_START`, enabled or not (42_edid_fsm.md R151 to R153). -/
theorem nextState_of_waitStart (hstate : s.cur.state = .waitStart) (hstart : start s = false) : nextState s = .waitStart := by
  cases hen : s.cur.hpdEn with
  | false => exact nextState_of_disabled hen
  | true => rw [nextState_of_row hen hstart, currentRow_of_waitStart hstate, quietRow_next]

theorem stuckLow_busTick (c d : Bool) (h : StuckLow s) : StuckLow (busTick c d s) := by
  obtain ⟨hstate, hpresents, hdata⟩ := stuckLow_iff.mp h
  have hkept : Presents false (busTick c d s) :=
    presents_tick_of_quiet (s := s.withNow (busInputs c d s)) (currentRow_of_waitStart hstate) hpresents
  exact stuckLow_busTick_of (nextState_of_waitStart hstate (start_of_dataAt hdata)) hkept hdata
    (sdaLine_of_presents_zero hpresents d)

theorem stuckLow_busRun (levels : List (Bool × Bool)) (h : StuckLow s) : StuckLow (busRun levels s) := by
  induction levels generalizing s with
  | nil => exact h
  | cons level rest ih => exact ih (stuckLow_busTick level.1 level.2 h)

theorem sdaLine_of_stuckLow (h : StuckLow s) (masterSda : Bool) : sdaLine masterSda s = false := by
  obtain ⟨-, hpresents, -⟩ := stuckLow_iff.mp h
  exact sdaLine_of_presents_zero hpresents masterSda

end StuckLine

/-- Settles O29: every tick keeps the stuck engine; a disable in `READ` leaves the presented 0 in a clock-high tick, where the row
is quiet, and does not suppress the row's write in a clock-low one. -/
theorem stuckLowForever : Obligations.StuckLowForever := by
  refine ⟨fun levels s h => ?_, fun c d s hstate hclock hdrv hbit hdata hoff => ?_,
    fun c d s hstate hclock hlt hbit hdata hline hoff => ?_⟩
  · have hstuck := stuckLow_busRun levels h
    exact ⟨hstuck, sdaLine_of_stuckLow hstuck⟩
  · have hpresents : Presents false s := ⟨hdrv, hbit⟩
    have hkept : Presents false (busTick c d s) :=
      presents_tick_of_quiet (s := s.withNow (busInputs c d s)) (currentRow_of_read_high hstate hclock) hpresents
    exact stuckLow_busTick_of (nextState_of_disabled hoff) hkept hdata (sdaLine_of_presents_zero hpresents d)
  · have hwritten : Presents false (busTick c d s) :=
      hbit ▸ presents_tick_of_read_open (s := s.withNow (busInputs c d s)) hstate hclock hlt
    exact stuckLow_busTick_of (nextState_of_disabled hoff) hwritten hdata hline

/-! ## The line released for one tick (R303) -/

section Release
variable {s : State}

theorem currentRow_of_ackAddress2_low (hstate : s.cur.state = .ackAddress2) (hclock : s.cur.sclI = false)
    (hread : s.cur.isRead = true) : currentRow s = quietRow .read := by
  simp only [currentRow, hstate, rowAckAddress2, hclock, hread, Bool.false_eq_true, if_false, if_true]

/-- With a bit to send, `READ` leads to no acknowledge state: it stays, or an override takes it to `WAIT_START` or
`RCV_ADDRESS`. -/
theorem zeroDrv_tick_of_read_open (hstate : s.cur.state = .read) (hclock : s.cur.sclI = false)
    (hopen : s.cur.counter ≠ 8#4) : zeroDrv (tick s) = false := by
  have hnext : (tick s).cur.state = overridden s.cur .read := by
    rw [tick_state, nextState_eq_overridden, currentRow_of_read_open hstate hclock hopen]; rfl
  rw [zeroDrv_of_state hnext, overridden]
  split_ifs <;> rfl

/-- The first data bit, one tick after `READ` was entered with the clock low and no bit out. -/
theorem sdaOe_tick_of_read_first (hstate : s.cur.state = .read) (hclock : s.cur.sclI = false)
    (hcounter : s.cur.counter = 0#4) : sdaOe (tick s) = !(memRead s s.cur.offset).getLsbD 7 := by
  have hzero : s.cur.counter.toNat = 0 := by rw [hcounter]; rfl
  have hopen : s.cur.counter ≠ 8#4 := by bv_omega
  have hpresents := presents_tick_of_read_open hstate hclock (by omega)
  rw [hzero] at hpresents
  exact sdaOe_of_presents (zeroDrv_tick_of_read_open hstate hclock hopen) hpresents

end Release

/-- Settles O30: `ACK_ADDRESS2` requests the acknowledge, `READ` is entered with the drive latch off, and its first clock-low tick
presents bit 7. Software may disable the engine meanwhile: the third tick's line does not depend on it. -/
theorem oneTickRelease : Obligations.OneTickRelease := by
  intro s hstate hclock hread hen hcounter hdrv hphase
  have hrow := currentRow_of_ackAddress2_low hstate hclock hread
  have hentered : (tick s).cur.state = .read := by
    rw [tick_state, nextState_of_row hen (start_of_low hclock), hrow, quietRow_next]
  have hreleased : (tick s).cur.dataDrv = false := by rw [tick_dataDrv, hrow]; exact hdrv
  have hoffset : (tick s).cur.offset = s.cur.offset := by rw [tick_offset, hrow]; rfl
  have hcarry : sampCarry s = false := by rw [sampCarry, hphase]; rfl
  obtain ⟨hsample, -⟩ := tick_samples_of_noCarry hcarry
  have hlow : (tick s).cur.sclI = false := hsample.trans hclock
  have hcount : (tick s).cur.counter = s.cur.counter := tick_counter_of_still (start_of_low hclock) (sclRising_of_low hclock)
  have hfirst := sdaOe_tick_of_read_first hentered hlow (hcount.trans hcounter)
  rw [hoffset] at hfirst
  have hacknowledges : sdaOe s = true := by rw [sdaOe, zeroDrv_of_state hstate]; rfl
  exact ⟨hacknowledges, hentered, sdaOe_of_released (zeroDrv_of_state hentered) hreleased, hfirst⟩

end Sys2Proof.Proofs
end
